-- ==== Sys2Proof/Word.lean ====
section
/-! DEFINITION. The machine's words: 32-bit registers and bus addresses (spec 00_scope.md R7, R10), bytes of bus space. -/

namespace Sys2Proof

/-- A register value or a bus address: `XLEN = 32` bits (R7, R10). -/
abbrev Word := BitVec 32

/-- A byte of bus space. -/
abbrev Byte := BitVec 8

end Sys2Proof
end

