-- ==== Sys2Proof/Machine/Arith.lean ====
section
/-! DEFINITION. The arithmetic of the operations: over the integers, reduced only as a value is stored (00_scope.md R11). -/

namespace Sys2Proof.Machine

/-- `ceil_div(a, b)`, for `b > 0` (00_scope.md R11). -/
def ceilDiv (a b : Nat) : Nat := (a + b - 1) / b

/-- `round_up(a, m)` (00_scope.md R11). -/
def roundUp (a m : Nat) : Nat := ceilDiv a m * m

/-- A value as it is stored in a register: `mod 2^32` (00_scope.md R11). -/
def toWord (n : Nat) : Word := BitVec.ofNat 32 n

/-- A bounded `while` loop: `turn` as long as `guard` holds, at most `fuel` times (00_scope.md R15). -/
def repeatWhile {α : Type} (guard : α → Bool) (turn : α → α) : Nat → α → α
  | 0, x => x
  | fuel + 1, x => if guard x then repeatWhile guard turn fuel (turn x) else x

end Sys2Proof.Machine
end

