-- ==== Sys2Proof/Syntax.lean ====
section
/-! DEFINITION. The syntax of the block: its nine operations, its register names, what host and environment can do to it,
and the lines of a host script. -/

namespace Sys2Proof

/-- The operations, one constructor for each row of the opcode map (30_encoding.md R81, 44_system.md R201).
No operation has an operand in its word but `PWAIT`, whose bit 8 `E` asks to wait for the ECC completion as well. -/
inductive Instr where
  /-- compute the geometry (R100) -/
  | geom
  /-- discard the geometry (R113) -/
  | ginv
  /-- synthesize the timing (R120) -/
  | tsyn
  /-- build a read chain (R155) -/
  | dbrd
  /-- build a write chain (R156) -/
  | dbwr
  /-- wait for the completions (R162); `e = true` is written `PWAIT.E` -/
  | pwait (e : Bool)
  /-- aggregate the ECC status bytes (R180, extension A) -/
  | eagg
  /-- swap the block-mark byte (R190, extension S) -/
  | bswp
  /-- leave the abort state (R200) -/
  | clrf
deriving DecidableEq, Repr

/-- Which optional extensions a build has (00_scope.md R2). -/
structure Build where
  /-- extension A, the operation `EAGG` -/
  extA : Bool
  /-- extension S, the operation `BSWP` -/
  extS : Bool
deriving DecidableEq, Repr

/-- The registers of the register map (10_state.md R22), by name; the four table words have the index of their entry. -/
inductive Reg where
  | cmd | status | err | cfg | pageSize | oobSize
  | gEccStrength | gChunkSize | gChunkCount | gMetadataSize | gPayloadSize | gAuxSize | gAuxStatusOff | gBmByteOff | gBmBitOff
  | tDataSetupNs | tDataHoldNs | tAddrSetupNs | tSampleDelayNs | tTreaNs | tTrlohNs | tTrhohNs | tKnown | clkPeriodNs
  | cMaxSetupCyc | cMaxSdf | cIntSetupNs | cMaxDllPeriodNs | cMaxDllDelayNs | cMinPropNs | cMaxPropNs
  | hDataSetupCyc | hDataHoldCyc | hAddrSetupCyc | hHalfPeriods | hSdf
  | dPayloadAddr | dPayloadLen | dAuxAddr | dAuxLen | dPagebufAddr | dPagebufLen | dChainAddr | dChip
  | dCount | dEffPayload | dEffAux
  | xPayloadAddr | xAuxAddr | aFailed | aCorrected | sFailed | sCorrected
  | tblPage (i : Fin 8) | tblOob (i : Fin 8) | tblStrength (i : Fin 8) | tblCtrl (i : Fin 8)
deriving DecidableEq, Repr

/-- Access classes of registers (10_state.md R20). -/
inductive Access where
  /-- host reads and writes; operations read -/
  | rw
  /-- operations write; host reads; host writes are ignored -/
  | ro
  /-- `CMD` only -/
  | wo
deriving DecidableEq, Repr

/-- Widths of a host access to the register space; only 32-bit accesses are accepted (20_memory.md R62). -/
inductive Width where
  | w8 | w16 | w32 | w64
deriving DecidableEq, Repr

/-- Events of the environment (60_exceptions.md R220, R223). -/
inductive Event where
  /-- the DMA engine signals completion -/
  | dmaDone
  /-- the BCH engine signals completion -/
  | eccDone
  /-- the timer ends the wait for the DMA completion -/
  | dmaTimeout
  /-- the timer ends the wait for the ECC completion -/
  | eccTimeout
deriving DecidableEq, Repr

/-- One act of an agent other than the solver (00_scope.md R6; Log 1). -/
inductive Action where
  /-- a host read of the register space -/
  | read (w : Width) (off : Word)
  /-- a host write of the register space; of a 64-bit write only the low half is carried, and it is refused (R62) -/
  | write (w : Width) (off : Word) (data : Word)
  /-- an event of the environment -/
  | event (e : Event)
  /-- another bus master stores a byte to bus space (R60, R65; Log 14) -/
  | busStore (a : Word) (v : Byte)
  /-- the platform asserts reset (70_reset_and_hazards.md R250) -/
  | reset
deriving DecidableEq, Repr

/-- The lines of a host script (30_encoding.md R84) and its pseudo-lines (R85). -/
inductive ScriptLine where
  /-- `wr REG, value` -/
  | wr (r : Reg) (v : Word)
  /-- `rd REG`, or `rd REG = value` with the expected value -/
  | rd (r : Reg) (expected : Option Word)
  /-- a mnemonic line -/
  | op (i : Instr)
  /-- `ev …` -/
  | ev (e : Event)
  /-- `tbl i, page, oob, strength` -/
  | tbl (i : Fin 8) (page oob strength : Word)
  /-- `tblclr i` -/
  | tblclr (i : Fin 8)
  /-- `cmd word` -/
  | cmd (w : Word)
deriving DecidableEq, Repr

end Sys2Proof
end

