-- ==== Sys2Proof/WellFormed.lean ====
section
/-! DEFINITION. Which operations a build has (00_scope.md R2, 30_encoding.md R82). -/

namespace Sys2Proof

/-- The full build, `GTP_AS` (00_scope.md R2). -/
def Build.full : Build := { extA := true, extS := true }

/-- The base-only build, `GTP` (00_scope.md R2). -/
def Build.base : Build := { extA := false, extS := false }

/-- The operation belongs to the build: `EAGG` needs extension A and `BSWP` extension S (30_encoding.md R82). -/
def wellFormed (b : Build) : Instr → Bool
  | .geom => true
  | .ginv => true
  | .tsyn => true
  | .dbrd => true
  | .dbwr => true
  | .pwait _ => true
  | .eagg => b.extA
  | .bswp => b.extS
  | .clrf => true

end Sys2Proof
end

