-- ==== Sys2Proof/Decode.lean ====
section
/-! DEFINITION. Command words: the decoder, total on any 32-bit word, and after it the encoder (30_encoding.md R80 to R82).
A command word is the data of one register write, so it has no byte order and no place in memory (R80, 20_memory.md R69). -/

namespace Sys2Proof

/-- Why a word is illegal (30_encoding.md R82). -/
inductive DecodeError where
  /-- a bit of 31:9 is 1 -/
  | zeroField
  /-- `OP` is 0x00 or in 0x0A to 0xFF -/
  | reservedOp
  /-- `E = 1` and `OP` is not 0x06 -/
  | strayE
  /-- `OP` names an operation of an extension that the build lacks -/
  | extensionAbsent
deriving DecidableEq, Repr

/-- `OP`, bits 7:0 of a command word (R80). -/
def opField (w : Word) : Byte := w.extractLsb' 0 8

/-- `E`, bit 8 of a command word (R80). -/
def eField (w : Word) : Bool := w.getLsbD 8

/-- Bits 31:9 of a command word, which must be 0 (R80). -/
def zeroField (w : Word) : BitVec 23 := w.extractLsb' 9 23

/-- The rows of the opcode map, chosen by `OP`; the row of `PWAIT` takes `E` as its operand (R81). -/
def decodeOp (e : Bool) : Nat → Option Instr
  | 0x01 => some .geom
  | 0x02 => some .ginv
  | 0x03 => some .tsyn
  | 0x04 => some .dbrd
  | 0x05 => some .dbwr
  | 0x06 => some (.pwait e)
  | 0x07 => some .eagg
  | 0x08 => some .bswp
  | 0x09 => some .clrf
  | _ => none

/-- The decoder: every 32-bit word is one row of the map or is illegal, for a named reason (R82). -/
def decodeWord (b : Build) (w : Word) : Except DecodeError Instr :=
  if zeroField w ≠ 0 then .error .zeroField
  else
    match decodeOp (eField w) (opField w).toNat with
    | none => .error .reservedOp
    | some i =>
      if eField w = true ∧ opField w ≠ 0x06 then .error .strayE
      else if wellFormed b i then .ok i
      else .error .extensionAbsent

/-- The operation's number, the field `OP` of its word and of `ERR` (R81, 10_state.md R26). -/
def opByte : Instr → Byte
  | .geom => 0x01
  | .ginv => 0x02
  | .tsyn => 0x03
  | .dbrd => 0x04
  | .dbwr => 0x05
  | .pwait _ => 0x06
  | .eagg => 0x07
  | .bswp => 0x08
  | .clrf => 0x09

/-- The operand bit `E` of an operation's word (R80). -/
def eBit : Instr → Bool
  | .geom => false
  | .ginv => false
  | .tsyn => false
  | .dbrd => false
  | .dbwr => false
  | .pwait e => e
  | .eagg => false
  | .bswp => false
  | .clrf => false

/-- The encoder: the word of an operation, `zero` above `E` above `OP` (R80, R81). -/
def encode (i : Instr) : Word :=
  (0 : BitVec 23) ++ BitVec.ofBool (eBit i) ++ opByte i

/-- The operation that the full build's decoder reads from an opcode-table word of `nbits` bits. A command word has one
length, 32 bits (R80), so a table word is that word itself with every bit above `nbits` zero. -/
def decodeTableWord (nbits w : Nat) : Option Instr :=
  match decodeWord Build.full (BitVec.ofNat 32 (w % 2 ^ nbits)) with
  | .ok i => some i
  | .error _ => none

end Sys2Proof
end

