-- ==== Sys2Proof/Config.lean ====
section
/-! DEFINITION. What a build of the block fixes: the parameters this spec fixes (00_scope.md R7) and, as constants with no
body, those it leaves open (R8), so that no proof can depend on a value of theirs. -/

namespace Sys2Proof.Config

/-- `METADATA_SIZE`, bytes (00_scope.md R7). -/
def metadataSize : Nat := 10

/-- `N_TABLE`, entries of the ECC strength table (R7). -/
abbrev nTable : Nat := 8

/-- `DESC_WORDS`, 32-bit words per descriptor (R7). -/
def descWords : Nat := 5

/-- `DESC_STRIDE`, bytes from one descriptor to the next (R7). -/
def descStride : Nat := 20

/-- `ecc_bits(chunk_size, ecc_strength)`: parity bits per chunk. The spec gives no formula, so it is a free function of
its two arguments (R8, 93_implementation_defined.md U1; Log 5). -/
opaque eccBits : Nat → Nat → Nat

/-- `ST_ERASED`, the status byte of an erased chunk; no value in the spec (R8, U2; Log 6). -/
opaque stErased : Byte

/-- `ST_CLEAN`, the status byte of a chunk without errors; no value in the spec (R8, U2; Log 6). -/
opaque stClean : Byte

/-- `ST_UNCORR`, the status byte of an uncorrectable chunk; no value in the spec (R8, U2; Log 6). -/
opaque stUncorr : Byte

/-- `TIMEOUT_DMA`, a duration; no rule reads it, because the block measures no time (R8, U5; Log 8). -/
opaque timeoutDma : Nat

/-- `TIMEOUT_ECC`, a duration; no rule reads it (R8, U5; Log 8). -/
opaque timeoutEcc : Nat

end Sys2Proof.Config
end

