-- ==== Sys2Proof/Machine/State.lean ====
section
/-! DEFINITION. The state of the block as plain data: the registers of 10_state.md R22 grouped as the document groups its
records, the bus space behind the master port, and the model's own fields (inputs, reply, build). -/

namespace Sys2Proof.Machine

/-- `STATUS.WAITST` (10_state.md R24). The fourth value of the two bits never occurs and is no constructor (Log 12). -/
inductive WaitState where
  /-- 0: no wait in progress -/
  | idle
  /-- 1: waiting for the DMA completion -/
  | waitDma
  /-- 2: waiting for the ECC completion -/
  | waitEcc
deriving DecidableEq, Repr

/-- The flags of `STATUS` (10_state.md R24), bit 0 first. -/
structure Status where
  geomValid : Bool
  bmValid : Bool
  timingValid : Bool
  twarn : Bool
  descValid : Bool
  descWr : Bool
  bounceP : Bool
  bounceA : Bool
  waitst : WaitState
  dmaL : Bool
  eccL : Bool
  aggValid : Bool
  report : Bool
  waitE : Bool
  abort : Bool
deriving DecidableEq, Repr

/-- `ERR` (10_state.md R26): the outcome and the operation number of the last command. -/
structure ErrReg where
  op : Byte
  code : Byte
deriving DecidableEq, Repr

/-- `CFG` (10_state.md R25); bits 31:3 do not exist. -/
structure Cfg where
  swap : Bool
  chunk1k : Bool
  bus16 : Bool
deriving DecidableEq, Repr

/-- The nine `G_*` registers, the record NfcGeometry (10_state.md R29). -/
structure Geometry where
  eccStrength : Word
  chunkSize : Word
  chunkCount : Word
  metadataSize : Word
  payloadSize : Word
  auxSize : Word
  auxStatusOff : Word
  bmByteOff : Word
  bmBitOff : Word
deriving DecidableEq, Repr

/-- The NandTiming operands `T_*` and `CLK_PERIOD_NS` (10_state.md R30); `known` is the three kept bits of `T_KNOWN`. -/
structure Target where
  dataSetupNs : Word
  dataHoldNs : Word
  addrSetupNs : Word
  sampleDelayNs : Word
  treaNs : Word
  trlohNs : Word
  trhohNs : Word
  known : BitVec 3
  clkPeriodNs : Word
deriving DecidableEq, Repr

/-- The constraint registers `C_*` (10_state.md R31). -/
structure Limits where
  maxSetupCyc : Word
  maxSdf : Word
  intSetupNs : Word
  maxDllPeriodNs : Word
  maxDllDelayNs : Word
  minPropNs : Word
  maxPropNs : Word
deriving DecidableEq, Repr

/-- The HardwareTiming results `H_*` (10_state.md R32); `halfPeriods` is bit 0 of `H_HALF_PERIODS`. -/
structure Timing where
  dataSetupCyc : Word
  dataHoldCyc : Word
  addrSetupCyc : Word
  halfPeriods : Bool
  sdf : Word
deriving DecidableEq, Repr

/-- The descriptor builder's operands `D_*` (10_state.md R33); `chip` is the four kept bits of `D_CHIP`. -/
structure DmaOperands where
  payloadAddr : Word
  payloadLen : Word
  auxAddr : Word
  auxLen : Word
  pagebufAddr : Word
  pagebufLen : Word
  chainAddr : Word
  chip : BitVec 4
deriving DecidableEq, Repr

/-- The descriptor builder's results `D_COUNT`, `D_EFF_PAYLOAD`, `D_EFF_AUX` (10_state.md R34). -/
structure ChainResult where
  count : Word
  effPayload : Word
  effAux : Word
deriving DecidableEq, Repr

/-- The addresses `X_PAYLOAD_ADDR` and `X_AUX_ADDR` of the extensions (10_state.md R35). -/
structure ExtAddrs where
  payloadAddr : Word
  auxAddr : Word
deriving DecidableEq, Repr

/-- A pair of failed chunks and corrected bits: `A_FAILED`, `A_CORRECTED` or `S_FAILED`, `S_CORRECTED` (10_state.md R36). -/
structure EccCounts where
  failed : Word
  corrected : Word
deriving DecidableEq, Repr

/-- One entry of the ECC strength table (10_state.md R28); `valid` is bit 0 of `TBL_CTRL`. -/
structure TableEntry where
  page : Word
  oob : Word
  strength : Word
  valid : Bool
deriving DecidableEq, Repr

/-- Bus space as (address, byte) pairs in canonical form, `Memory.wf` of Ops.lean (20_memory.md R60; Log 4). -/
structure Memory where
  cells : List Host.Cell
deriving DecidableEq, Repr

/-- The slave port's answer to the most recent host access (20_memory.md R62; Log 9). -/
inductive Reply where
  /-- no host access yet -/
  | noAccess
  /-- an accepted write -/
  | done
  /-- an accepted read, with the value returned -/
  | data (v : Word)
  /-- a refused access -/
  | busError
deriving DecidableEq, Repr

/-- The state: every register of 10_state.md R22, bus space, and the model's own `build`, `inputs` and `reply`
(INVENTORY.md, State). -/
structure State where
  status : Status
  err : ErrReg
  cfg : Cfg
  pageSize : Word
  oobSize : Word
  geom : Geometry
  target : Target
  limits : Limits
  timing : Timing
  dma : DmaOperands
  chain : ChainResult
  ext : ExtAddrs
  agg : EccCounts
  sums : EccCounts
  table : Vector TableEntry Config.nTable
  mem : Memory
  build : Build
  inputs : List Action
  reply : Reply
deriving DecidableEq, Repr

/-- Reasons to stop with a fault. There are none: the block has no error that is fatal to it (60_exceptions.md R218),
every error is an outcome in `ERR` after which it goes on, and its master port has no bus error (20_memory.md R65). -/
inductive Fault where
deriving DecidableEq, Repr

/-- Reasons for which the model has no step. -/
inductive Refusal where
  /-- The dispatcher raises it for an operation without a meaning; safe. No operation of this model lacks one. -/
  | notModelled (mnemonic : String)
  /-- The step raises it when the input is `dma_timeout` and `WAITST` is not `WAIT_DMA`: there "it cannot happen, and the
  model has no step for it" (60_exceptions.md R223); safe. -/
  | dmaTimeoutNotEnabled
  /-- The step raises it when the input is `ecc_timeout` and `WAITST` is not `WAIT_ECC` (60_exceptions.md R223); safe. -/
  | eccTimeoutNotEnabled
deriving DecidableEq, Repr

/-- What a step of this machine answers. -/
abbrev Outcome := Host.Outcome State Fault Refusal

/-- `STATUS` after reset (10_state.md R38). -/
def Status.reset : Status :=
  { geomValid := false, bmValid := false, timingValid := false, twarn := false, descValid := false, descWr := false,
    bounceP := false, bounceA := false, waitst := .idle, dmaL := false, eccL := false, aggValid := false,
    report := false, waitE := false, abort := false }

/-- The `G_*` registers after reset and after `GINV`: all 0 (10_state.md R38, 40_geometry.md R113). -/
def Geometry.zero : Geometry :=
  { eccStrength := 0, chunkSize := 0, chunkCount := 0, metadataSize := 0, payloadSize := 0, auxSize := 0,
    auxStatusOff := 0, bmByteOff := 0, bmBitOff := 0 }

/-- A table entry after reset (70_reset_and_hazards.md R251). -/
def TableEntry.reset : TableEntry := { page := 0, oob := 0, strength := 0, valid := false }

/-- Every register at its reset value (10_state.md R38, 70_reset_and_hazards.md R251), over a given bus space, build,
inputs and reply: reset touches registers only (R250). -/
def State.resetWith (mem : Memory) (build : Build) (inputs : List Action) (reply : Reply) : State where
  status := Status.reset
  err := { op := 0, code := 0 }
  cfg := { swap := false, chunk1k := false, bus16 := false }
  pageSize := 0
  oobSize := 0
  geom := Geometry.zero
  target :=
    { dataSetupNs := 0, dataHoldNs := 0, addrSetupNs := 0, sampleDelayNs := 0, treaNs := 0, trlohNs := 0, trhohNs := 0,
      known := 0, clkPeriodNs := 0 }
  limits :=
    { maxSetupCyc := 0, maxSdf := 0, intSetupNs := 0, maxDllPeriodNs := 0, maxDllDelayNs := 0, minPropNs := 0,
      maxPropNs := 0 }
  timing := { dataSetupCyc := 0, dataHoldCyc := 0, addrSetupCyc := 0, halfPeriods := false, sdf := 0 }
  dma :=
    { payloadAddr := 0, payloadLen := 0, auxAddr := 0, auxLen := 0, pagebufAddr := 0, pagebufLen := 0, chainAddr := 0,
      chip := 0 }
  chain := { count := 0, effPayload := 0, effAux := 0 }
  ext := { payloadAddr := 0, auxAddr := 0 }
  agg := { failed := 0, corrected := 0 }
  sums := { failed := 0, corrected := 0 }
  table := Vector.replicate Config.nTable TableEntry.reset
  mem := mem
  build := build
  inputs := inputs
  reply := reply

/-- The machine right after reset, in the full build, with nothing listed in bus space (DESIGN CHOICE, Logs 4, 7) and no
input (Log 1). -/
def State.reset : State := State.resetWith { cells := [] } Build.full [] .noAccess

end Sys2Proof.Machine
end

