-- ==== Sys2Proof/Machine/Flags.lean ====
section
/-! DEFINITION. The words made of fields: `STATUS`, `ERR`, `CFG` and the descriptor's `CTRL`, and the error codes. -/

namespace Sys2Proof.Machine

/-- `STATUS.WAITST` as two bits (10_state.md R24). -/
def waitBits : WaitState → BitVec 2
  | .idle => 0
  | .waitDma => 1
  | .waitEcc => 2

/-- The word `STATUS` (10_state.md R24): bits 31:16 read 0, then `ABORT` at bit 15 down to `GEOM_VALID` at bit 0. -/
def statusWord (st : Status) : Word :=
  (0 : BitVec 16) ++ BitVec.ofBool st.abort ++ BitVec.ofBool st.waitE ++ BitVec.ofBool st.report ++
    BitVec.ofBool st.aggValid ++ BitVec.ofBool st.eccL ++ BitVec.ofBool st.dmaL ++ waitBits st.waitst ++
    BitVec.ofBool st.bounceA ++ BitVec.ofBool st.bounceP ++ BitVec.ofBool st.descWr ++ BitVec.ofBool st.descValid ++
    BitVec.ofBool st.twarn ++ BitVec.ofBool st.timingValid ++ BitVec.ofBool st.bmValid ++ BitVec.ofBool st.geomValid

/-- The word `ERR` (10_state.md R26): `OP` in bits 15:8, `CODE` in bits 7:0. -/
def errWord (e : ErrReg) : Word := (0 : BitVec 16) ++ e.op ++ e.code

/-- The word `CFG` (10_state.md R25). -/
def cfgWord (c : Cfg) : Word :=
  (0 : BitVec 29) ++ BitVec.ofBool c.bus16 ++ BitVec.ofBool c.chunk1k ++ BitVec.ofBool c.swap

/-- What a write to `CFG` keeps (10_state.md R25). -/
def cfgOfWord (v : Word) : Cfg :=
  { swap := v.getLsbD 0, chunk1k := v.getLsbD 1, bus16 := v.getLsbD 2 }

/-- A wait is in progress: `WAITST ≠ 0` (20_memory.md R71). -/
def waiting (st : Status) : Bool :=
  match st.waitst with
  | .idle => false
  | .waitDma => true
  | .waitEcc => true

/-- The errors an operation of this block can raise (60_exceptions.md R211, R212). -/
inductive ErrCode where
  | unsupportedGeometry
  | blockMarkInEccRegion
  | dmaTimeout
  | eccTimeout
  | inadequateDmaBuffer
  | illegalCommand
  | illegalSequence
  | badOperand
deriving DecidableEq, Repr

/-- The number of an error in `ERR.CODE` (60_exceptions.md R211). Code 0x05, `OobWriteUnsupported`, is reserved and never
raised by this block. -/
def errNumber : ErrCode → Byte
  | .unsupportedGeometry => 0x01
  | .blockMarkInEccRegion => 0x02
  | .dmaTimeout => 0x03
  | .eccTimeout => 0x04
  | .inadequateDmaBuffer => 0x06
  | .illegalCommand => 0x80
  | .illegalSequence => 0x81
  | .badOperand => 0x82

/-- `CTRL.STAGE` (42_pipeline.md R152, R161). -/
inductive Stage where
  | waitReady | transfer | eccSettle | unlock
deriving DecidableEq, Repr

/-- The number of a stage (42_pipeline.md R152). -/
def stageBits : Stage → BitVec 3
  | .waitReady => 1
  | .transfer => 2
  | .eccSettle => 3
  | .unlock => 4

/-- `CTRL.ECC_MODE` (42_pipeline.md R152). -/
inductive EccMode where
  | off | encode | decode
deriving DecidableEq, Repr

/-- The number of an ECC mode (42_pipeline.md R152). -/
def eccModeBits : EccMode → BitVec 2
  | .off => 0
  | .encode => 1
  | .decode => 2

/-- The fields of a descriptor's `CTRL` word (42_pipeline.md R152); `dirWrite` is `DIR`, memory to controller. -/
structure Ctrl where
  stage : Stage
  chain : Bool
  waitReady : Bool
  lock : Bool
  irq : Bool
  eccMode : EccMode
  dirWrite : Bool
  chip : BitVec 4
deriving DecidableEq, Repr

/-- The word `CTRL` (42_pipeline.md R152). -/
def ctrlWord (c : Ctrl) : Word :=
  (0 : BitVec 16) ++ c.chip ++ (0 : BitVec 2) ++ BitVec.ofBool c.dirWrite ++ eccModeBits c.eccMode ++
    BitVec.ofBool c.irq ++ BitVec.ofBool c.lock ++ BitVec.ofBool c.waitReady ++ BitVec.ofBool c.chain ++
    stageBits c.stage

end Sys2Proof.Machine
end

