-- ==== Sys2Proof/Machine/Ops.lean ====
section
/-! DEFINITION. The named operations: bus space, the outcome of a command (success, error entry, the return from the abort
state, the refusal during a wait), and the wait state machine. -/

namespace Sys2Proof.Machine

/-! ## Bus space (20_memory.md R60 to R66) -/

/-- What a byte that is not listed reads as: 0x00 (DESIGN CHOICE, Log 4; the spec leaves the contents of bus space at
reset arbitrary, 70_reset_and_hazards.md R251). -/
def unlistedByte : Byte := 0x00

/-- The byte listed at an address, or `unlistedByte`. -/
def lookupCell : List Host.Cell → Nat → Byte
  | [], _ => unlistedByte
  | (k, v) :: cs, a => if k = a then v else lookupCell cs a

/-- The cells with a byte stored at an address, in rising order; storing `unlistedByte` takes the cell away. -/
def storeCell (a : Nat) (v : Byte) : List Host.Cell → List Host.Cell
  | [] => if v = unlistedByte then [] else [(a, v)]
  | (k, u) :: cs =>
    if k < a then (k, u) :: storeCell a v cs
    else if k = a then (if v = unlistedByte then cs else (a, v) :: cs)
    else if v = unlistedByte then (k, u) :: cs
    else (a, v) :: (k, u) :: cs

/-- The canonical form of a list of cells: addresses from `lo` on, strictly rising, below `2^32`, and no cell that holds
what an unlisted byte reads as. -/
def cellsWf : Nat → List Host.Cell → Bool
  | _, [] => true
  | lo, (k, v) :: cs => decide (lo ≤ k) && decide (k < 2 ^ 32) && decide (v ≠ unlistedByte) && cellsWf (k + 1) cs

/-- The canonical form of bus space. -/
def Memory.wf (m : Memory) : Bool := cellsWf 0 m.cells

/-- `MemRead(addr, 1)` (00_scope.md R13). -/
def readByte (m : Memory) (a : Word) : Byte := lookupCell m.cells a.toNat

/-- `MemWrite(addr, 1, v)` (00_scope.md R13). -/
def writeByte (m : Memory) (a : Word) (v : Byte) : Memory := { cells := storeCell a.toNat v m.cells }

/-- Byte `i` of a word, the least significant one first (20_memory.md R63). -/
def wordByte (v : Word) (i : Nat) : Byte := v.extractLsb' (8 * i) 8

/-- `MemRead(addr, 4)`: little-endian, addresses `mod 2^32` (00_scope.md R13, 20_memory.md R63, R66). No operation reads a
word; the DMA engine reads the chain so. -/
def readWord (m : Memory) (a : Word) : Word :=
  readByte m (a + 3) ++ readByte m (a + 2) ++ readByte m (a + 1) ++ readByte m a

/-- `MemWrite(addr, 4, v)`: little-endian, addresses `mod 2^32` (00_scope.md R13, 20_memory.md R63, R66). -/
def writeWord (m : Memory) (a v : Word) : Memory :=
  writeByte (writeByte (writeByte (writeByte m a (wordByte v 0)) (a + 1) (wordByte v 1)) (a + 2) (wordByte v 2))
    (a + 3) (wordByte v 3)

/-- Words stored one after the other from an address upward, in their order (20_memory.md R61, R67). -/
def writeWords (m : Memory) (a : Word) : List Word → Memory
  | [] => m
  | v :: vs => writeWords (writeWord m a v) (a + 4) vs

/-! ## The outcome of a command -/

/-- `ERR` written (10_state.md R26). -/
def setErr (op code : Byte) (s : State) : State := { s with err := { op := op, code := code } }

/-- A command that did its work: `ERR` gets its number and code 0 (10_state.md R26). -/
def succeed (op : Byte) (s : State) : State := setErr op 0 s

/-- The wait is over: `WAITST`, `WAIT_E` and `DESC_VALID` become 0 (42_pipeline.md R163, `finish`). -/
def endWait (s : State) : State :=
  { s with status := { s.status with waitst := .idle, waitE := false, descValid := false } }

/-- The abort state is entered (60_exceptions.md R214 item 2, R216). -/
def enterAbort (s : State) : State := { s with status := { s.status with abort := true } }

/-- ERROR ENTRY (60_exceptions.md R214): what the block does when a command raises an error, in full. `op` is bits 7:0 of
the command word. Nothing is saved and nothing is redirected, because the block executes no program. -/
def takeError (op : Byte) (e : ErrCode) (s : State) : State :=
  match e with
  | .unsupportedGeometry => enterAbort (setErr op (errNumber e) s)
  | .blockMarkInEccRegion => enterAbort (setErr op (errNumber e) s)
  | .dmaTimeout => endWait (setErr op (errNumber e) s)
  | .eccTimeout => endWait (setErr op (errNumber e) s)
  | .inadequateDmaBuffer => setErr op (errNumber e) s
  | .illegalCommand => setErr op (errNumber e) s
  | .illegalSequence => setErr op (errNumber e) s
  | .badOperand => setErr op (errNumber e) s

/-- THE RETURN (60_exceptions.md R217, 44_system.md R200): the abort state is left and both fields of `ERR` become 0. -/
def leaveAbort (s : State) : State :=
  setErr 0 0 { s with status := { s.status with abort := false } }

/-- An access the slave port refuses: a bus error, and no state of the block changes (20_memory.md R62, R71; Log 2). -/
def refuseAccess (s : State) : State := { s with reply := .busError }

/-- The checks every operation but `CLRF` shares (30_encoding.md R83): refusal during a wait, then the abort state; then
the operation's own body, which answers the state it wrote or the error it raises. An error discards what the body wrote
(00_scope.md R14, 60_exceptions.md R219). -/
def runCommand (op : Byte) (body : State → Except ErrCode State) (s : State) : Outcome :=
  if waiting s.status then .next (refuseAccess s)
  else if s.status.abort then .next (takeError op .illegalSequence s)
  else
    match body s with
    | .ok t => .next (succeed op t)
    | .error e => .next (takeError op e s)

/-! ## The wait state machine (42_pipeline.md R163) -/

/-- `finish(0)`: the wait ends with success; `ERR` belongs to `PWAIT`, operation 0x06. -/
def finishWait (s : State) : State := endWait (setErr 0x06 0 s)

/-- The first half of `advance`: a waited-for DMA completion is consumed. -/
def advanceDma (s : State) : State :=
  if s.status.waitst = .waitDma ∧ s.status.dmaL = true then
    if s.status.waitE then { s with status := { s.status with dmaL := false, waitst := .waitEcc } }
    else finishWait { s with status := { s.status with dmaL := false } }
  else s

/-- The second half of `advance`: a waited-for ECC completion is consumed. -/
def advanceEcc (s : State) : State :=
  if s.status.waitst = .waitEcc ∧ s.status.eccL = true then
    finishWait { s with status := { s.status with eccL := false } }
  else s

/-- `advance` (42_pipeline.md R163): the two halves in sequence, within one step. -/
def advance (s : State) : State := advanceEcc (advanceDma s)

end Sys2Proof.Machine
end

