-- ==== Sys2Proof/Machine/Extensions.lean ====
section
/-! DEFINITION. The extensions: `EAGG`, which sums the ECC status bytes (extension A), and `BSWP`, which swaps the
block-mark byte (extension S) (43_eccagg_swap.md). -/

namespace Sys2Proof.Machine

/-! ## EAGG (43_eccagg_swap.md R180 to R187) -/

/-- The three sentinels of a status byte (00_scope.md R8). -/
structure Sentinels where
  erased : Byte
  clean : Byte
  uncorr : Byte
deriving DecidableEq, Repr

/-- The build's sentinels, open parameters (Log 6). -/
def sentinels : Sentinels := { erased := Config.stErased, clean := Config.stClean, uncorr := Config.stUncorr }

/-- A status byte says that its chunk could not be corrected. The tests go in the order erased, clean, uncorrectable
(43_eccagg_swap.md R182). -/
def isFailed (c : Sentinels) (v : Byte) : Bool := v != c.erased && v != c.clean && v == c.uncorr

/-- The corrected bits a status byte counts: none for a sentinel, its value otherwise (43_eccagg_swap.md R182). -/
def correctedBits (c : Sentinels) (v : Byte) : Nat :=
  if v == c.erased || v == c.clean || v == c.uncorr then 0 else v.toNat

/-- The loop of `EAGG` over `n` status bytes from an address upward (43_eccagg_swap.md R181); addresses `mod 2^32`. -/
def aggregate (c : Sentinels) (m : Memory) : Nat → Word → Nat → Nat → Nat × Nat
  | 0, _, failed, corrected => (failed, corrected)
  | n + 1, a, failed, corrected =>
    let v := readByte m a
    aggregate c m n (a + 1) (if isFailed c v then failed + 1 else failed) (corrected + correctedBits c v)

/-- The reporting threshold, over the integers (43_eccagg_swap.md R183). -/
def reportable (failed corrected strength : Nat) : Bool :=
  decide (failed > 0) || decide ((corrected : Int) ≥ (strength : Int) - 1)

/-- The pair of failed chunks and corrected bits of the status bytes (43_eccagg_swap.md R181). -/
def aggregateOf (s : State) : Nat × Nat :=
  aggregate sentinels s.mem s.geom.chunkCount.toNat (s.ext.auxAddr + s.geom.auxStatusOff) 0 0

/-- The writes of a successful `EAGG` other than `ERR`, for a pair of counts (43_eccagg_swap.md R184). -/
def latchAggregate (failed corrected : Nat) (s : State) : State :=
  { s with
    agg := { failed := toWord failed, corrected := toWord corrected }
    sums :=
      if reportable failed corrected s.geom.eccStrength.toNat then
        { failed := toWord (s.sums.failed.toNat + failed), corrected := toWord (s.sums.corrected.toNat + corrected) }
      else s.sums
    status :=
      { s.status with aggValid := true, report := reportable failed corrected s.geom.eccStrength.toNat } }

/-- `EAGG` after the shared checks (43_eccagg_swap.md R180, R181). -/
def eaggBody (s : State) : Except ErrCode State :=
  if s.status.geomValid = false then .error .illegalSequence
  else .ok (latchAggregate (aggregateOf s).1 (aggregateOf s).2 s)

/-- `EAGG`: aggregate the ECC status bytes (43_eccagg_swap.md R180). -/
def execEagg (s : State) : Outcome := runCommand (opByte .eagg) eaggBody s

/-! ## BSWP (43_eccagg_swap.md R190 to R195) -/

/-- The byte that straddles bit offset `b` of two payload bytes (43_eccagg_swap.md R191). -/
def straddling (b : Nat) (p0 p1 : Byte) : Byte := (p0 >>> b) ||| (p1 <<< (8 - b))

/-- The first payload byte with the auxiliary byte put in its upper bits (43_eccagg_swap.md R191). -/
def lowByteSwapped (b : Nat) (p0 a0 : Byte) : Byte := (p0 &&& (((1 : Byte) <<< b) - 1)) ||| (a0 <<< b)

/-- The second payload byte with the rest of the auxiliary byte in its lower bits (43_eccagg_swap.md R191). -/
def highByteSwapped (b : Nat) (p1 a0 : Byte) : Byte := (p1 &&& ((0xFF : Byte) <<< b)) ||| (a0 >>> (8 - b))

/-- `P`, the address of the payload byte that holds the block mark's first bit (43_eccagg_swap.md R191). -/
def markAddr (s : State) : Word := s.ext.payloadAddr + s.geom.bmByteOff

/-- Bus space after the swap: three reads, then three writes in the order auxiliary, first, second (43_eccagg_swap.md
R191, R193). -/
def swapMark (m : Memory) (b : Nat) (pa aa : Word) : Memory :=
  let p0 := readByte m pa
  let p1 := readByte m (pa + 1)
  let a0 := readByte m aa
  writeByte (writeByte (writeByte m aa (straddling b p0 p1)) pa (lowByteSwapped b p0 a0)) (pa + 1)
    (highByteSwapped b p1 a0)

/-- `BSWP` after the shared checks (43_eccagg_swap.md R190, R191). -/
def bswpBody (s : State) : Except ErrCode State :=
  if s.status.geomValid = false ∨ s.status.bmValid = false then .error .illegalSequence
  else .ok { s with mem := swapMark s.mem s.geom.bmBitOff.toNat (markAddr s) s.ext.auxAddr }

/-- `BSWP`: swap the block-mark byte (43_eccagg_swap.md R190). -/
def execBswp (s : State) : Outcome := runCommand (opByte .bswp) bswpBody s

end Sys2Proof.Machine
end

