-- ==== Sys2Proof/Machine/Geometry.lean ====
section
/-! DEFINITION. The geometry operations `GEOM` and `GINV` (40_geometry.md). -/

namespace Sys2Proof.Machine

/-- The chunk size in bytes (40_geometry.md R102). -/
def chunkSizeOf (c : Cfg) : Nat := if c.chunk1k then 1024 else 512

/-- An entry of the table matches: valid, and both keys equal to the operands (40_geometry.md R103). -/
def entryMatches (page oob : Word) (e : TableEntry) : Bool := e.valid && e.page == page && e.oob == oob

/-- The strength of the matching entry with the least index (40_geometry.md R103). -/
def lookupStrength (t : Vector TableEntry Config.nTable) (page oob : Word) : Option Word :=
  (t.toList.find? (entryMatches page oob)).map TableEntry.strength

/-- `auxiliary_status_offset`, the metadata rounded up to 4 (40_geometry.md R104). -/
def auxStatusOffset : Nat := roundUp Config.metadataSize 4

/-- `B`, the position of the block mark in the stream of chunks (40_geometry.md R106 item 1). -/
def markPosition (page : Nat) : Nat := page * 8 - Config.metadataSize * 8

/-- The byte and bit offset of the block mark in the data view, for a page of chunks of `csz` data bytes with `ecc` parity
bits each; none where the mark lands in parity bits (40_geometry.md R106). -/
def blockMark (page csz ecc : Nat) : Option (Nat × Nat) :=
  let d := csz * 8
  let k := markPosition page / (d + ecc)
  let r := markPosition page - k * (d + ecc)
  let bd := markPosition page - k * ecc
  if r ≥ d then none else some (bd / 8, bd % 8)

/-- The nine result registers for a page size, a chunk size, a strength and a block mark (40_geometry.md R104, R105,
R107). -/
def layoutGeometry (page csz : Nat) (strength : Word) (mark : Nat × Nat) : Geometry where
  eccStrength := strength
  chunkSize := toWord csz
  chunkCount := toWord (page / csz)
  metadataSize := toWord Config.metadataSize
  payloadSize := toWord page
  auxSize := toWord (auxStatusOffset + roundUp (page / csz) 4)
  auxStatusOff := toWord auxStatusOffset
  bmByteOff := toWord mark.1
  bmBitOff := toWord mark.2

/-- The document's `compute` (40_geometry.md R100), over the parity function: lookup, operand check, block mark, in that
order of errors (R108). `ecc_bits` is not evaluated when swapping is off (R109). -/
def computeGeometry (eccBits : Nat → Nat → Nat) (page oob : Word) (c : Cfg) (t : Vector TableEntry Config.nTable) :
    Except ErrCode Geometry :=
  match lookupStrength t page oob with
  | none => .error .unsupportedGeometry
  | some strength =>
    if page = 0 ∨ page.toNat % chunkSizeOf c ≠ 0 then .error .badOperand
    else if c.swap then
      match blockMark page.toNat (chunkSizeOf c) (eccBits (chunkSizeOf c) strength.toNat) with
      | none => .error .blockMarkInEccRegion
      | some mark => .ok (layoutGeometry page.toNat (chunkSizeOf c) strength mark)
    else .ok (layoutGeometry page.toNat (chunkSizeOf c) strength (0, 0))

/-- The writes of a successful `GEOM` other than `ERR` (40_geometry.md R107). -/
def latchGeometry (g : Geometry) (s : State) : State :=
  { s with geom := g, status := { s.status with geomValid := true, bmValid := s.cfg.swap } }

/-- `GEOM` after the shared checks (40_geometry.md R100, R101). -/
def geomBody (s : State) : Except ErrCode State :=
  if s.status.geomValid then .error .illegalSequence
  else
    match computeGeometry Config.eccBits s.pageSize s.oobSize s.cfg s.table with
    | .error e => .error e
    | .ok g => .ok (latchGeometry g s)

/-- `GEOM`: compute the geometry (40_geometry.md R100). -/
def execGeom (s : State) : Outcome := runCommand (opByte .geom) geomBody s

/-- The writes of `GINV` other than `ERR` (40_geometry.md R113). -/
def discardGeometry (s : State) : State :=
  { s with
    geom := Geometry.zero
    status :=
      { s.status with
        geomValid := false, bmValid := false, descValid := false, aggValid := false, report := false } }

/-- `GINV` after the shared checks: it has no error of its own (40_geometry.md R113). -/
def ginvBody (s : State) : Except ErrCode State := .ok (discardGeometry s)

/-- `GINV`: tear the geometry down (40_geometry.md R113). -/
def execGinv (s : State) : Outcome := runCommand (opByte .ginv) ginvBody s

end Sys2Proof.Machine
end

