-- ==== Sys2Proof/Machine/Pipeline.lean ====
section
/-! DEFINITION. The descriptor builder `DBRD`, `DBWR` and the completion tracker `PWAIT` (42_pipeline.md). -/

namespace Sys2Proof.Machine

/-- A descriptor: five words (42_pipeline.md R151). -/
structure Descriptor where
  next : Word
  ctrl : Ctrl
  count : Word
  payloadAddr : Word
  auxAddr : Word
deriving DecidableEq, Repr

/-- The words W0 to W4 of a descriptor (42_pipeline.md R151). -/
def descriptorWords (d : Descriptor) : List Word := [d.next, ctrlWord d.ctrl, d.count, d.payloadAddr, d.auxAddr]

/-- The buffers a chain will use (42_pipeline.md R154). -/
structure Buffers where
  bounceP : Bool
  bounceA : Bool
  effPayload : Word
  effAux : Word
deriving DecidableEq, Repr

/-- The caller's payload buffer is too small (42_pipeline.md R154). -/
def payloadTooSmall (g : Geometry) (d : DmaOperands) : Bool := decide (d.payloadLen.toNat < g.payloadSize.toNat)

/-- The caller's auxiliary buffer is too small (42_pipeline.md R154). -/
def auxTooSmall (g : Geometry) (d : DmaOperands) : Bool := decide (d.auxLen.toNat < g.auxSize.toNat)

/-- The PageBuffer does not hold both regions (42_pipeline.md R154). -/
def pagebufTooSmall (g : Geometry) (d : DmaOperands) : Bool :=
  decide (d.pagebufLen.toNat < g.payloadSize.toNat + g.auxSize.toNat)

/-- `select_buffers`, or none for `InadequateDmaBuffer` (42_pipeline.md R154). -/
def selectBuffers (g : Geometry) (d : DmaOperands) : Option Buffers :=
  if (payloadTooSmall g d || auxTooSmall g d) && pagebufTooSmall g d then none
  else
    some
      { bounceP := payloadTooSmall g d, bounceA := auxTooSmall g d
        effPayload := if payloadTooSmall g d then d.pagebufAddr else d.payloadAddr
        effAux := if auxTooSmall g d then d.pagebufAddr + g.payloadSize else d.auxAddr }

/-- The address of descriptor `j` of a chain (42_pipeline.md R151). -/
def descriptorAddr (c : Word) (j : Nat) : Word := c + toWord (Config.descStride * j)

/-- The WAIT_READY descriptor of a read chain (42_pipeline.md R161). -/
def readWaitReady (c : Word) (chip : BitVec 4) : Descriptor where
  next := descriptorAddr c 1
  ctrl :=
    { stage := .waitReady, chain := true, waitReady := true, lock := true, irq := false, eccMode := .off,
      dirWrite := false, chip := chip }
  count := 0
  payloadAddr := 0
  auxAddr := 0

/-- The TRANSFER descriptor of a read chain (42_pipeline.md R161, R155). -/
def readTransfer (c : Word) (chip : BitVec 4) (count : Word) (b : Buffers) : Descriptor where
  next := descriptorAddr c 2
  ctrl :=
    { stage := .transfer, chain := true, waitReady := false, lock := true, irq := false, eccMode := .decode,
      dirWrite := false, chip := chip }
  count := count
  payloadAddr := b.effPayload
  auxAddr := b.effAux

/-- The ECC_SETTLE descriptor of a read chain, which waits for ready again (42_pipeline.md R161). -/
def readEccSettle (c : Word) (chip : BitVec 4) : Descriptor where
  next := descriptorAddr c 3
  ctrl :=
    { stage := .eccSettle, chain := true, waitReady := true, lock := true, irq := false, eccMode := .off,
      dirWrite := false, chip := chip }
  count := 0
  payloadAddr := 0
  auxAddr := 0

/-- The TRANSFER descriptor of a write chain (42_pipeline.md R161, R156). -/
def writeTransfer (c : Word) (chip : BitVec 4) (count : Word) (b : Buffers) : Descriptor where
  next := descriptorAddr c 1
  ctrl :=
    { stage := .transfer, chain := true, waitReady := false, lock := true, irq := false, eccMode := .encode,
      dirWrite := true, chip := chip }
  count := count
  payloadAddr := b.effPayload
  auxAddr := b.effAux

/-- The ECC_SETTLE descriptor of a write chain, which does not wait (42_pipeline.md R161). -/
def writeEccSettle (c : Word) (chip : BitVec 4) : Descriptor where
  next := descriptorAddr c 2
  ctrl :=
    { stage := .eccSettle, chain := true, waitReady := false, lock := true, irq := false, eccMode := .off,
      dirWrite := false, chip := chip }
  count := 0
  payloadAddr := 0
  auxAddr := 0

/-- The UNLOCK descriptor, the last of either chain; it alone asks for the interrupt (42_pipeline.md R161). -/
def unlockDescriptor (chip : BitVec 4) : Descriptor where
  next := 0
  ctrl :=
    { stage := .unlock, chain := false, waitReady := false, lock := false, irq := true, eccMode := .off,
      dirWrite := false, chip := chip }
  count := 0
  payloadAddr := 0
  auxAddr := 0

/-- A read's transfer count: the payload size, halved on a 16-bit bus (42_pipeline.md R155). -/
def readCount (g : Geometry) (c : Cfg) : Word := if c.bus16 then toWord (g.payloadSize.toNat / 2) else g.payloadSize

/-- A write's transfer count: payload and auxiliary size together (42_pipeline.md R156). -/
def writeCount (g : Geometry) : Word := g.payloadSize + g.auxSize

/-- The read chain (42_pipeline.md R155, R161). -/
def readChain (s : State) (b : Buffers) : List Descriptor :=
  [readWaitReady s.dma.chainAddr s.dma.chip, readTransfer s.dma.chainAddr s.dma.chip (readCount s.geom s.cfg) b,
    readEccSettle s.dma.chainAddr s.dma.chip, unlockDescriptor s.dma.chip]

/-- The write chain (42_pipeline.md R156, R161). -/
def writeChain (s : State) (b : Buffers) : List Descriptor :=
  [writeTransfer s.dma.chainAddr s.dma.chip (writeCount s.geom) b, writeEccSettle s.dma.chainAddr s.dma.chip,
    unlockDescriptor s.dma.chip]

/-- The words of a chain, from its address upward (42_pipeline.md R151). -/
def chainWords (ds : List Descriptor) : List Word := ds.flatMap descriptorWords

/-- The common writes of a successful builder other than `ERR` (42_pipeline.md R157): the chain in bus space, the `D_*`
results, the flags, and both latches cleared. -/
def latchChain (isWrite : Bool) (ds : List Descriptor) (b : Buffers) (s : State) : State :=
  { s with
    mem := writeWords s.mem s.dma.chainAddr (chainWords ds)
    chain := { count := toWord ds.length, effPayload := b.effPayload, effAux := b.effAux }
    status :=
      { s.status with
        descValid := true, descWr := isWrite, bounceP := b.bounceP, bounceA := b.bounceA, dmaL := false,
        eccL := false } }

/-- The checks both builders make, in their order (42_pipeline.md R153, R158), and the buffers they select. -/
def builderChecks (s : State) : Except ErrCode Buffers :=
  if s.status.geomValid = false then .error .illegalSequence
  else if s.dma.chainAddr.toNat % 4 ≠ 0 then .error .badOperand
  else
    match selectBuffers s.geom s.dma with
    | none => .error .inadequateDmaBuffer
    | some b => .ok b

/-- `DBRD` after the shared checks (42_pipeline.md R155). -/
def dbrdBody (s : State) : Except ErrCode State :=
  match builderChecks s with
  | .error e => .error e
  | .ok b => .ok (latchChain false (readChain s b) b s)

/-- `DBRD`: build a read chain (42_pipeline.md R155). -/
def execDbrd (s : State) : Outcome := runCommand (opByte .dbrd) dbrdBody s

/-- `DBWR` after the shared checks (42_pipeline.md R156). -/
def dbwrBody (s : State) : Except ErrCode State :=
  match builderChecks s with
  | .error e => .error e
  | .ok b => .ok (latchChain true (writeChain s b) b s)

/-- `DBWR`: build a write chain (42_pipeline.md R156). -/
def execDbwr (s : State) : Outcome := runCommand (opByte .dbwr) dbwrBody s

/-- The wait is entered: `WAIT_E <- E`, `WAITST <- WAIT_DMA` (42_pipeline.md R162). -/
def enterWait (e : Bool) (s : State) : State :=
  { s with status := { s.status with waitE := e, waitst := .waitDma } }

/-- `PWAIT` after the shared checks (42_pipeline.md R162): enter the wait, then `advance` in the same step. `ERR` becomes
operation 0x06, code 0, as `runCommand` writes it. -/
def pwaitBody (e : Bool) (s : State) : Except ErrCode State :=
  if s.status.descValid = false then .error .illegalSequence else .ok (advance (enterWait e s))

/-- `PWAIT` and `PWAIT.E`: wait for the completions (42_pipeline.md R162). -/
def execPwait (e : Bool) (s : State) : Outcome := runCommand (opByte (.pwait e)) (pwaitBody e) s

end Sys2Proof.Machine
end

