-- ==== Sys2Proof/Machine/System.lean ====
section
/-! DEFINITION. The system operation `CLRF` (44_system.md). -/

namespace Sys2Proof.Machine

/-- `CLRF`: leave the abort state and clear `ERR` (44_system.md R200). It is the one operation accepted in the abort
state; like every command it is refused during a wait (20_memory.md R71). -/
def execClrf (s : State) : Outcome := .next (if waiting s.status then refuseAccess s else leaveAbort s)

end Sys2Proof.Machine
end

