-- ==== Sys2Proof/Machine/Timing.lean ====
section
/-! DEFINITION. The timing-eye synthesizer `TSYN` (41_timing.md). Times are in ns, `p` is the clock period; all arithmetic
is over the integers (00_scope.md R11). -/

namespace Sys2Proof.Machine

/-- A target time as a cycle count, limited to the maximum at once (41_timing.md R122, R123). -/
def cycles (ns p maxc : Nat) : Nat := min (ceilDiv ns p) maxc

/-- The half-period flag (41_timing.md R124). -/
def halfPeriods (p maxDllPeriod : Nat) : Bool := decide (p > maxDllPeriod / 2)

/-- `DDF`, delay units per clock period (41_timing.md R124). -/
def delayUnits (half : Bool) : Nat := if half then 16 else 8

/-- The largest usable delay (41_timing.md R125). -/
def maxDelay (p maxf ddf maxDllPeriod maxDllDelay : Nat) : Nat :=
  if p > maxDllPeriod then 0 else min (maxf * p / ddf) maxDllDelay

/-- `quant(f)`: the delay in whole ns that a factor applies (41_timing.md R131). -/
def quant (p ddf f : Nat) : Nat := f * p / ddf

/-- `factor(d)`: the least factor whose delay is not below `d`, limited to the maximum (41_timing.md R127, R131). -/
def factor (p ddf maxf d : Nat) : Nat := min (ceilDiv (d * ddf) p) maxf

/-- What a path of the synthesis settles: setup cycles, sample-delay factor, best-effort flag. -/
structure PathResult where
  setup : Nat
  sdf : Nat
  warn : Bool
deriving DecidableEq, Repr

/-! ## The Basic path (41_timing.md R127) -/

/-- What the Basic trade changes: setup cycles and the wanted delay. -/
structure TradePoint where
  setup : Nat
  ideal : Nat
deriving DecidableEq, Repr

/-- The trade goes on: the delay is out of range and setup cycles are left (41_timing.md R127 step 2). -/
def tradeGuard (maxc maxdelay : Nat) (t : TradePoint) : Bool := decide (t.ideal > maxdelay ∧ t.setup < maxc)

/-- One turn of the trade: a setup cycle more, a period of delay less, not below 0 (41_timing.md R127 step 2). -/
def tradeTurn (p : Nat) (t : TradePoint) : TradePoint := { setup := t.setup + 1, ideal := t.ideal - p }

/-- The Basic path from the quantized setup time and the folded delay (41_timing.md R127). At most `maxc` turns (R140). -/
def basicPath (p ddf maxc maxf maxdelay setup ideal : Nat) : PathResult :=
  let t := repeatWhile (tradeGuard maxc maxdelay) (tradeTurn p) maxc { setup := setup, ideal := ideal }
  { setup := t.setup, sdf := factor p ddf maxf t.ideal, warn := decide (t.ideal > maxdelay) }

/-! ## The Eye-aware path (41_timing.md R128 to R133) -/

/-- The eye's fixed part: clock period, `open` and `closeb` (41_timing.md R128, R130). -/
structure Eye where
  p : Nat
  opening : Nat
  closeBase : Nat
deriving DecidableEq, Repr

/-- `teye(c)`, signed: the width of the eye at `c` setup cycles (41_timing.md R128). -/
def teye (e : Eye) (c : Nat) : Int := (e.closeBase : Int) + (c : Int) * (e.p : Int) - (e.opening : Int)

/-- `idealf(c)`: the sample delay of the eye's midpoint, floored, not below 0 (41_timing.md R130). -/
def idealDelay (e : Eye) (c : Nat) : Nat :=
  (((e.opening : Int) + (e.closeBase : Int) - (c : Int) * (e.p : Int)) / 2).toNat

/-- The sample point is outside the eye (41_timing.md R132): further from the ideal than half the eye width, floored. -/
def outsideEye (e : Eye) (ddf setup sdf ideal : Nat) : Bool :=
  decide (|(quant e.p ddf sdf : Int) - (ideal : Int)| > teye e setup / 2)

/-- The eye is closed and setup cycles are left (41_timing.md R129). -/
def openGuard (e : Eye) (maxc setup : Nat) : Bool := decide (teye e setup ≤ 0 ∧ setup < maxc)

/-- One turn of opening the eye (41_timing.md R129). -/
def openTurn (setup : Nat) : Nat := setup + 1

/-- What the centring loop changes. -/
structure CentrePoint where
  setup : Nat
  sdf : Nat
  ideal : Nat
deriving DecidableEq, Repr

/-- The ideal delay and its factor at a number of setup cycles (41_timing.md R130, R131). -/
def centreStart (e : Eye) (ddf maxf setup : Nat) : CentrePoint :=
  { setup := setup, sdf := factor e.p ddf maxf (idealDelay e setup), ideal := idealDelay e setup }

/-- The sample point is outside and setup cycles are left; the guard governs the shrinking branch too (41_timing.md
R133). -/
def centreGuard (e : Eye) (ddf maxc : Nat) (c : CentrePoint) : Bool :=
  outsideEye e ddf c.setup c.sdf c.ideal && decide (c.setup < maxc)

/-- One turn of the centring loop: shrink the factor on overshoot, grow setup otherwise (41_timing.md R133). -/
def centreTurn (e : Eye) (ddf maxf : Nat) (c : CentrePoint) : CentrePoint :=
  if quant e.p ddf c.sdf > c.ideal then { c with sdf := c.sdf - 1 }
  else centreStart e ddf maxf (c.setup + 1)

/-- The bound on the centring loop's turns (41_timing.md R140). -/
def centreFuel (maxc maxf : Nat) : Nat := maxc * (maxf + 1) + maxf

/-- The Eye-aware path from the quantized setup time (41_timing.md R129 to R133, R135). -/
def eyePath (e : Eye) (ddf maxc maxf setup : Nat) : PathResult :=
  let opened := repeatWhile (openGuard e maxc) openTurn maxc setup
  let c := repeatWhile (centreGuard e ddf maxc) (centreTurn e ddf maxf) (centreFuel maxc maxf)
    (centreStart e ddf maxf opened)
  { setup := c.setup, sdf := c.sdf,
    warn := decide (teye e c.setup ≤ 0) || outsideEye e ddf c.setup c.sdf c.ideal }

/-! ## The operation -/

/-- The eye of the operands (41_timing.md R128): the tRLOH value is used nowhere (R126). -/
def eyeOf (t : Target) (l : Limits) : Eye :=
  { p := t.clkPeriodNs.toNat, opening := l.maxPropNs.toNat + t.treaNs.toNat,
    closeBase := l.minPropNs.toNat + t.trhohNs.toNat }

/-- All three propagation characteristics are known (41_timing.md R126). -/
def allKnown (t : Target) : Bool := t.known == 0b111

/-- The half-period flag of the operands (41_timing.md R124). -/
def halfOf (t : Target) (l : Limits) : Bool := halfPeriods t.clkPeriodNs.toNat l.maxDllPeriodNs.toNat

/-- The path the operands choose, with its result (41_timing.md R126). -/
def pathOf (t : Target) (l : Limits) : PathResult :=
  let p := t.clkPeriodNs.toNat
  let maxc := l.maxSetupCyc.toNat
  let maxf := l.maxSdf.toNat
  let ddf := delayUnits (halfOf t l)
  let setup := cycles t.dataSetupNs.toNat p maxc
  if allKnown t then eyePath (eyeOf t l) ddf maxc maxf setup
  else
    basicPath p ddf maxc maxf (maxDelay p maxf ddf l.maxDllPeriodNs.toNat l.maxDllDelayNs.toNat) setup
      (t.sampleDelayNs.toNat + l.intSetupNs.toNat)

/-- The five results, clamped once more as they are written (41_timing.md R134). -/
def timingOf (t : Target) (l : Limits) : Timing :=
  let p := t.clkPeriodNs.toNat
  let maxc := l.maxSetupCyc.toNat
  { dataSetupCyc := toWord (min (pathOf t l).setup maxc)
    dataHoldCyc := toWord (min (cycles t.dataHoldNs.toNat p maxc) maxc)
    addrSetupCyc := toWord (min (cycles t.addrSetupNs.toNat p maxc) maxc)
    halfPeriods := halfOf t l
    sdf := toWord (min (pathOf t l).sdf l.maxSdf.toNat) }

/-- The writes of a successful `TSYN` other than `ERR` (41_timing.md R136). -/
def latchTiming (s : State) : State :=
  { s with
    timing := timingOf s.target s.limits
    status := { s.status with timingValid := true, twarn := (pathOf s.target s.limits).warn } }

/-- `TSYN` after the shared checks (41_timing.md R120, R121, R137). -/
def tsynBody (s : State) : Except ErrCode State :=
  if s.target.clkPeriodNs = 0 then .error .badOperand else .ok (latchTiming s)

/-- `TSYN`: synthesize the timing (41_timing.md R120). -/
def execTsyn (s : State) : Outcome := runCommand (opByte .tsyn) tsynBody s

end Sys2Proof.Machine
end

