-- ==== Sys2Proof/Machine/Dispatch.lean ====
section
/-! DEFINITION. The dispatcher: one arm for each operation, one direct call of its meaning. -/

namespace Sys2Proof.Machine

/-- The meaning of a decoded command (30_encoding.md R81, R83). -/
def exec (i : Instr) (s : State) : Host.Outcome State Fault Refusal :=
  match i with
  | .geom => Sys2Proof.Machine.execGeom s
  | .ginv => Sys2Proof.Machine.execGinv s
  | .tsyn => Sys2Proof.Machine.execTsyn s
  | .dbrd => Sys2Proof.Machine.execDbrd s
  | .dbwr => Sys2Proof.Machine.execDbwr s
  | .pwait e => Sys2Proof.Machine.execPwait e s
  | .eagg => Sys2Proof.Machine.execEagg s
  | .bswp => Sys2Proof.Machine.execBswp s
  | .clrf => Sys2Proof.Machine.execClrf s

end Sys2Proof.Machine
end

