-- ==== Sys2Proof/Machine/Operands.lean ====
section
/-! DEFINITION. The register file: where each register stands in the register space, what reading and writing it does
(10_state.md R22 to R36, 20_memory.md R62). Every operand of an operation is one of these registers (30_encoding.md R80). -/

namespace Sys2Proof.Machine

/-- The offset of a register (10_state.md R22). -/
def regOffset : Reg → Nat
  | .cmd => 0x000
  | .status => 0x004
  | .err => 0x008
  | .cfg => 0x00C
  | .pageSize => 0x010
  | .oobSize => 0x014
  | .gEccStrength => 0x020
  | .gChunkSize => 0x024
  | .gChunkCount => 0x028
  | .gMetadataSize => 0x02C
  | .gPayloadSize => 0x030
  | .gAuxSize => 0x034
  | .gAuxStatusOff => 0x038
  | .gBmByteOff => 0x03C
  | .gBmBitOff => 0x040
  | .tDataSetupNs => 0x050
  | .tDataHoldNs => 0x054
  | .tAddrSetupNs => 0x058
  | .tSampleDelayNs => 0x05C
  | .tTreaNs => 0x060
  | .tTrlohNs => 0x064
  | .tTrhohNs => 0x068
  | .tKnown => 0x06C
  | .clkPeriodNs => 0x070
  | .cMaxSetupCyc => 0x074
  | .cMaxSdf => 0x078
  | .cIntSetupNs => 0x07C
  | .cMaxDllPeriodNs => 0x080
  | .cMaxDllDelayNs => 0x084
  | .cMinPropNs => 0x088
  | .cMaxPropNs => 0x08C
  | .hDataSetupCyc => 0x090
  | .hDataHoldCyc => 0x094
  | .hAddrSetupCyc => 0x098
  | .hHalfPeriods => 0x09C
  | .hSdf => 0x0A0
  | .dPayloadAddr => 0x0B0
  | .dPayloadLen => 0x0B4
  | .dAuxAddr => 0x0B8
  | .dAuxLen => 0x0BC
  | .dPagebufAddr => 0x0C0
  | .dPagebufLen => 0x0C4
  | .dChainAddr => 0x0C8
  | .dChip => 0x0CC
  | .dCount => 0x0D0
  | .dEffPayload => 0x0D4
  | .dEffAux => 0x0D8
  | .xPayloadAddr => 0x0E0
  | .xAuxAddr => 0x0E4
  | .aFailed => 0x0E8
  | .aCorrected => 0x0EC
  | .sFailed => 0x0F0
  | .sCorrected => 0x0F4
  | .tblPage i => 0x100 + 16 * i.val
  | .tblOob i => 0x104 + 16 * i.val
  | .tblStrength i => 0x108 + 16 * i.val
  | .tblCtrl i => 0x10C + 16 * i.val

/-- The word of the ECC strength table at an offset in the table's range 0x100 to 0x17F (10_state.md R22). -/
def tableRegAt (off : Nat) : Option Reg :=
  match off % 16 with
  | 0x0 => some (.tblPage (Fin.ofNat 8 ((off - 0x100) / 16)))
  | 0x4 => some (.tblOob (Fin.ofNat 8 ((off - 0x100) / 16)))
  | 0x8 => some (.tblStrength (Fin.ofNat 8 ((off - 0x100) / 16)))
  | 0xC => some (.tblCtrl (Fin.ofNat 8 ((off - 0x100) / 16)))
  | _ => none

/-- The register at an offset, or none where the map lists none (10_state.md R22, 20_memory.md R62). -/
def regAt : Nat → Option Reg
  | 0x000 => some .cmd
  | 0x004 => some .status
  | 0x008 => some .err
  | 0x00C => some .cfg
  | 0x010 => some .pageSize
  | 0x014 => some .oobSize
  | 0x020 => some .gEccStrength
  | 0x024 => some .gChunkSize
  | 0x028 => some .gChunkCount
  | 0x02C => some .gMetadataSize
  | 0x030 => some .gPayloadSize
  | 0x034 => some .gAuxSize
  | 0x038 => some .gAuxStatusOff
  | 0x03C => some .gBmByteOff
  | 0x040 => some .gBmBitOff
  | 0x050 => some .tDataSetupNs
  | 0x054 => some .tDataHoldNs
  | 0x058 => some .tAddrSetupNs
  | 0x05C => some .tSampleDelayNs
  | 0x060 => some .tTreaNs
  | 0x064 => some .tTrlohNs
  | 0x068 => some .tTrhohNs
  | 0x06C => some .tKnown
  | 0x070 => some .clkPeriodNs
  | 0x074 => some .cMaxSetupCyc
  | 0x078 => some .cMaxSdf
  | 0x07C => some .cIntSetupNs
  | 0x080 => some .cMaxDllPeriodNs
  | 0x084 => some .cMaxDllDelayNs
  | 0x088 => some .cMinPropNs
  | 0x08C => some .cMaxPropNs
  | 0x090 => some .hDataSetupCyc
  | 0x094 => some .hDataHoldCyc
  | 0x098 => some .hAddrSetupCyc
  | 0x09C => some .hHalfPeriods
  | 0x0A0 => some .hSdf
  | 0x0B0 => some .dPayloadAddr
  | 0x0B4 => some .dPayloadLen
  | 0x0B8 => some .dAuxAddr
  | 0x0BC => some .dAuxLen
  | 0x0C0 => some .dPagebufAddr
  | 0x0C4 => some .dPagebufLen
  | 0x0C8 => some .dChainAddr
  | 0x0CC => some .dChip
  | 0x0D0 => some .dCount
  | 0x0D4 => some .dEffPayload
  | 0x0D8 => some .dEffAux
  | 0x0E0 => some .xPayloadAddr
  | 0x0E4 => some .xAuxAddr
  | 0x0E8 => some .aFailed
  | 0x0EC => some .aCorrected
  | 0x0F0 => some .sFailed
  | 0x0F4 => some .sCorrected
  | off => if 0x100 ≤ off ∧ off < 0x180 then tableRegAt off else none

/-- The access class of a register (10_state.md R22). -/
def regAccess : Reg → Access
  | .cmd => .wo
  | .status => .ro
  | .err => .ro
  | .cfg => .rw
  | .pageSize => .rw
  | .oobSize => .rw
  | .gEccStrength => .ro
  | .gChunkSize => .ro
  | .gChunkCount => .ro
  | .gMetadataSize => .ro
  | .gPayloadSize => .ro
  | .gAuxSize => .ro
  | .gAuxStatusOff => .ro
  | .gBmByteOff => .ro
  | .gBmBitOff => .ro
  | .tDataSetupNs => .rw
  | .tDataHoldNs => .rw
  | .tAddrSetupNs => .rw
  | .tSampleDelayNs => .rw
  | .tTreaNs => .rw
  | .tTrlohNs => .rw
  | .tTrhohNs => .rw
  | .tKnown => .rw
  | .clkPeriodNs => .rw
  | .cMaxSetupCyc => .rw
  | .cMaxSdf => .rw
  | .cIntSetupNs => .rw
  | .cMaxDllPeriodNs => .rw
  | .cMaxDllDelayNs => .rw
  | .cMinPropNs => .rw
  | .cMaxPropNs => .rw
  | .hDataSetupCyc => .ro
  | .hDataHoldCyc => .ro
  | .hAddrSetupCyc => .ro
  | .hHalfPeriods => .ro
  | .hSdf => .ro
  | .dPayloadAddr => .rw
  | .dPayloadLen => .rw
  | .dAuxAddr => .rw
  | .dAuxLen => .rw
  | .dPagebufAddr => .rw
  | .dPagebufLen => .rw
  | .dChainAddr => .rw
  | .dChip => .rw
  | .dCount => .ro
  | .dEffPayload => .ro
  | .dEffAux => .ro
  | .xPayloadAddr => .rw
  | .xAuxAddr => .rw
  | .aFailed => .ro
  | .aCorrected => .ro
  | .sFailed => .rw
  | .sCorrected => .rw
  | .tblPage _ => .rw
  | .tblOob _ => .rw
  | .tblStrength _ => .rw
  | .tblCtrl _ => .rw

/-- The bits of a written value that a host-writable register keeps (10_state.md R25, R28, R30, R33). -/
def keptMask : Reg → Word
  | .cfg => 0x00000007
  | .tKnown => 0x00000007
  | .dChip => 0x0000000F
  | .tblCtrl _ => 0x00000001
  | _ => 0xFFFFFFFF

/-- One entry of the ECC strength table changed (10_state.md R28). -/
def setEntry (s : State) (i : Fin 8) (e : TableEntry) : State :=
  { s with table := s.table.set i.val e }

/-- The value of a register, `x[NAME]`; reserved bits read 0, and `CMD` reads 0 (20_memory.md R62, 10_state.md R23). -/
def readReg (s : State) : Reg → Word
  | .cmd => 0
  | .status => statusWord s.status
  | .err => errWord s.err
  | .cfg => cfgWord s.cfg
  | .pageSize => s.pageSize
  | .oobSize => s.oobSize
  | .gEccStrength => s.geom.eccStrength
  | .gChunkSize => s.geom.chunkSize
  | .gChunkCount => s.geom.chunkCount
  | .gMetadataSize => s.geom.metadataSize
  | .gPayloadSize => s.geom.payloadSize
  | .gAuxSize => s.geom.auxSize
  | .gAuxStatusOff => s.geom.auxStatusOff
  | .gBmByteOff => s.geom.bmByteOff
  | .gBmBitOff => s.geom.bmBitOff
  | .tDataSetupNs => s.target.dataSetupNs
  | .tDataHoldNs => s.target.dataHoldNs
  | .tAddrSetupNs => s.target.addrSetupNs
  | .tSampleDelayNs => s.target.sampleDelayNs
  | .tTreaNs => s.target.treaNs
  | .tTrlohNs => s.target.trlohNs
  | .tTrhohNs => s.target.trhohNs
  | .tKnown => s.target.known.setWidth 32
  | .clkPeriodNs => s.target.clkPeriodNs
  | .cMaxSetupCyc => s.limits.maxSetupCyc
  | .cMaxSdf => s.limits.maxSdf
  | .cIntSetupNs => s.limits.intSetupNs
  | .cMaxDllPeriodNs => s.limits.maxDllPeriodNs
  | .cMaxDllDelayNs => s.limits.maxDllDelayNs
  | .cMinPropNs => s.limits.minPropNs
  | .cMaxPropNs => s.limits.maxPropNs
  | .hDataSetupCyc => s.timing.dataSetupCyc
  | .hDataHoldCyc => s.timing.dataHoldCyc
  | .hAddrSetupCyc => s.timing.addrSetupCyc
  | .hHalfPeriods => (BitVec.ofBool s.timing.halfPeriods).setWidth 32
  | .hSdf => s.timing.sdf
  | .dPayloadAddr => s.dma.payloadAddr
  | .dPayloadLen => s.dma.payloadLen
  | .dAuxAddr => s.dma.auxAddr
  | .dAuxLen => s.dma.auxLen
  | .dPagebufAddr => s.dma.pagebufAddr
  | .dPagebufLen => s.dma.pagebufLen
  | .dChainAddr => s.dma.chainAddr
  | .dChip => s.dma.chip.setWidth 32
  | .dCount => s.chain.count
  | .dEffPayload => s.chain.effPayload
  | .dEffAux => s.chain.effAux
  | .xPayloadAddr => s.ext.payloadAddr
  | .xAuxAddr => s.ext.auxAddr
  | .aFailed => s.agg.failed
  | .aCorrected => s.agg.corrected
  | .sFailed => s.sums.failed
  | .sCorrected => s.sums.corrected
  | .tblPage i => s.table[i].page
  | .tblOob i => s.table[i].oob
  | .tblStrength i => s.table[i].strength
  | .tblCtrl i => (BitVec.ofBool s.table[i].valid).setWidth 32

/-- An accepted host write to a register other than `CMD`: a `RW` register stores the bits it keeps, a write to a `RO`
register changes nothing (20_memory.md R62). A write to `CMD` stores nothing (10_state.md R23); what it starts is
`Port.lean`'s. -/
def writeReg (s : State) (v : Word) : Reg → State
  | .cmd => s
  | .status => s
  | .err => s
  | .cfg => { s with cfg := cfgOfWord v }
  | .pageSize => { s with pageSize := v }
  | .oobSize => { s with oobSize := v }
  | .gEccStrength => s
  | .gChunkSize => s
  | .gChunkCount => s
  | .gMetadataSize => s
  | .gPayloadSize => s
  | .gAuxSize => s
  | .gAuxStatusOff => s
  | .gBmByteOff => s
  | .gBmBitOff => s
  | .tDataSetupNs => { s with target := { s.target with dataSetupNs := v } }
  | .tDataHoldNs => { s with target := { s.target with dataHoldNs := v } }
  | .tAddrSetupNs => { s with target := { s.target with addrSetupNs := v } }
  | .tSampleDelayNs => { s with target := { s.target with sampleDelayNs := v } }
  | .tTreaNs => { s with target := { s.target with treaNs := v } }
  | .tTrlohNs => { s with target := { s.target with trlohNs := v } }
  | .tTrhohNs => { s with target := { s.target with trhohNs := v } }
  | .tKnown => { s with target := { s.target with known := v.setWidth 3 } }
  | .clkPeriodNs => { s with target := { s.target with clkPeriodNs := v } }
  | .cMaxSetupCyc => { s with limits := { s.limits with maxSetupCyc := v } }
  | .cMaxSdf => { s with limits := { s.limits with maxSdf := v } }
  | .cIntSetupNs => { s with limits := { s.limits with intSetupNs := v } }
  | .cMaxDllPeriodNs => { s with limits := { s.limits with maxDllPeriodNs := v } }
  | .cMaxDllDelayNs => { s with limits := { s.limits with maxDllDelayNs := v } }
  | .cMinPropNs => { s with limits := { s.limits with minPropNs := v } }
  | .cMaxPropNs => { s with limits := { s.limits with maxPropNs := v } }
  | .hDataSetupCyc => s
  | .hDataHoldCyc => s
  | .hAddrSetupCyc => s
  | .hHalfPeriods => s
  | .hSdf => s
  | .dPayloadAddr => { s with dma := { s.dma with payloadAddr := v } }
  | .dPayloadLen => { s with dma := { s.dma with payloadLen := v } }
  | .dAuxAddr => { s with dma := { s.dma with auxAddr := v } }
  | .dAuxLen => { s with dma := { s.dma with auxLen := v } }
  | .dPagebufAddr => { s with dma := { s.dma with pagebufAddr := v } }
  | .dPagebufLen => { s with dma := { s.dma with pagebufLen := v } }
  | .dChainAddr => { s with dma := { s.dma with chainAddr := v } }
  | .dChip => { s with dma := { s.dma with chip := v.setWidth 4 } }
  | .dCount => s
  | .dEffPayload => s
  | .dEffAux => s
  | .xPayloadAddr => { s with ext := { s.ext with payloadAddr := v } }
  | .xAuxAddr => { s with ext := { s.ext with auxAddr := v } }
  | .aFailed => s
  | .aCorrected => s
  | .sFailed => { s with sums := { s.sums with failed := v } }
  | .sCorrected => { s with sums := { s.sums with corrected := v } }
  | .tblPage i => setEntry s i { s.table[i] with page := v }
  | .tblOob i => setEntry s i { s.table[i] with oob := v }
  | .tblStrength i => setEntry s i { s.table[i] with strength := v }
  | .tblCtrl i => setEntry s i { s.table[i] with valid := v.getLsbD 0 }

end Sys2Proof.Machine
end

