-- ==== Sys2Proof/Machine/Port.lean ====
section
/-! DEFINITION. What each act of an agent does: host accesses at the slave port, events of the environment, stores of other
bus masters, reset (20_memory.md R62, R71; 60_exceptions.md R220, R223; 70_reset_and_hazards.md R250). -/

namespace Sys2Proof.Machine

/-- The register a host access reaches, or none where the access is refused: it must be 32 bits wide and at a listed
offset (20_memory.md R62). Every listed offset is a multiple of 4. -/
def accessedReg (w : Width) (off : Word) : Option Reg :=
  match w with
  | .w8 => none
  | .w16 => none
  | .w32 => regAt off.toNat
  | .w64 => none

/-- A host read (20_memory.md R62): the register's value, with no side effect, in a wait too (R71). -/
def hostRead (w : Width) (off : Word) (s : State) : Outcome :=
  match accessedReg w off with
  | none => .next (refuseAccess s)
  | some r => .next { s with reply := .data (readReg s r) }

/-- The port accepts a write. -/
def acceptWrite (s : State) : State := { s with reply := .done }

/-- An illegal command word outside a wait raises `IllegalCommand` and does nothing else, in the abort state too
(30_encoding.md R82, R83; 60_exceptions.md R216). -/
def illegalCommand (w : Word) (s : State) : Outcome :=
  .next (if waiting s.status then refuseAccess s else takeError (opField w) .illegalCommand s)

/-- A 32-bit write to `CMD` (10_state.md R23, 30_encoding.md R80 to R83): the operation that the word encodes. The
meaning itself refuses the write during a wait. -/
def hostCommand (w : Word) (s : State) : Outcome :=
  match decodeWord s.build w with
  | .ok i => exec i (acceptWrite s)
  | .error _ => illegalCommand w (acceptWrite s)

/-- A host write (20_memory.md R62, R71). -/
def hostWrite (w : Width) (off data : Word) (s : State) : Outcome :=
  match accessedReg w off with
  | none => .next (refuseAccess s)
  | some r =>
    if r = .cmd then hostCommand data s
    else if waiting s.status then .next (refuseAccess s)
    else .next (writeReg (acceptWrite s) data r)

/-- The DMA engine's completion: the latch is set in any state, then `advance` (60_exceptions.md R220). -/
def dmaDone (s : State) : State := advance { s with status := { s.status with dmaL := true } }

/-- The BCH engine's completion: the latch is set in any state, then `advance` (60_exceptions.md R220). -/
def eccDone (s : State) : State := advance { s with status := { s.status with eccL := true } }

/-- An event of the environment (60_exceptions.md R220, R223). A timeout happens only in its wait state; elsewhere the
model has no step for it (Log 3). -/
def takeEvent (e : Event) (s : State) : Outcome :=
  match e with
  | .dmaDone => .next (dmaDone s)
  | .eccDone => .next (eccDone s)
  | .dmaTimeout =>
    if s.status.waitst = .waitDma then .next (takeError 0x06 .dmaTimeout s) else .refused .dmaTimeoutNotEnabled
  | .eccTimeout =>
    if s.status.waitst = .waitEcc then .next (takeError 0x06 .eccTimeout s) else .refused .eccTimeoutNotEnabled

/-- Reset: every register at its reset value; bus space keeps its contents (70_reset_and_hazards.md R250). The build and
the inputs still to come are no registers (Log 16). -/
def resetBlock (s : State) : State := State.resetWith s.mem s.build s.inputs .noAccess

/-- One act of an agent. -/
def perform (a : Action) (s : State) : Outcome :=
  match a with
  | .read w off => hostRead w off s
  | .write w off data => hostWrite w off data s
  | .event e => takeEvent e s
  | .busStore a v => .next { s with mem := writeByte s.mem a v }
  | .reset => .next (resetBlock s)

/-- The next act is taken from the inputs and performed; with none left the block stays as it is (70_reset_and_hazards.md
R252, 93_implementation_defined.md U15; Log 1). -/
def takeInput (s : State) : Outcome :=
  match s.inputs with
  | [] => .next s
  | a :: rest => perform a { s with inputs := rest }

/-- The input that runs a command word: the host's 32-bit write of it to `CMD` (30_encoding.md R80). -/
def commandInput (w : Word) : Action := .write .w32 0x000 w

end Sys2Proof.Machine
end

