-- ==== Sys2Proof/Machine/Step.lean ====
section
/-! DEFINITION. One step of the machine: the next input is performed. -/

namespace Sys2Proof.Machine

/-- One step (00_scope.md R6, 10_state.md R21; Log 1). -/
def step (s : State) : Host.Outcome State Fault Refusal := takeInput s

/-- The state with a command word placed where the next step takes it: the host's write of it to `CMD` is put before all
other inputs. -/
def State.withFetchWord (s : State) (nbits w : Nat) : State :=
  { s with inputs := commandInput (BitVec.ofNat 32 (w % 2 ^ nbits)) :: s.inputs }

end Sys2Proof.Machine
end

