-- ==== Sys2Proof/Machine/Script.lean ====
section
/-! DEFINITION. Host scripts as inputs of the block (30_encoding.md R84, R85). -/

namespace Sys2Proof.Machine

/-- The name of an operation in a host script (30_encoding.md R84). -/
def mnemonic : Instr → String
  | .geom => "GEOM"
  | .ginv => "GINV"
  | .tsyn => "TSYN"
  | .dbrd => "DBRD"
  | .dbwr => "DBWR"
  | .pwait false => "PWAIT"
  | .pwait true => "PWAIT.E"
  | .eagg => "EAGG"
  | .bswp => "BSWP"
  | .clrf => "CLRF"

/-- `wr REG, value` as a bus write (30_encoding.md R84). -/
def regWrite (r : Reg) (v : Word) : Action := .write .w32 (BitVec.ofNat 32 (regOffset r)) v

/-- `rd REG` as a bus read (30_encoding.md R84). -/
def regRead (r : Reg) : Action := .read .w32 (BitVec.ofNat 32 (regOffset r))

/-- The bus actions or the event a script line stands for (30_encoding.md R84), pseudo-lines expanded (R85). -/
def lineActions : ScriptLine → List Action
  | .wr r v => [regWrite r v]
  | .rd r _ => [regRead r]
  | .op i => [regWrite .cmd (encode i)]
  | .ev e => [.event e]
  | .tbl i page oob strength =>
    [regWrite (.tblPage i) page, regWrite (.tblOob i) oob, regWrite (.tblStrength i) strength, regWrite (.tblCtrl i) 1]
  | .tblclr i => [regWrite (.tblCtrl i) 0]
  | .cmd w => [regWrite .cmd w]

/-- The inputs of a whole script, in its order. -/
def scriptInputs (ls : List ScriptLine) : List Action := ls.flatMap lineActions

end Sys2Proof.Machine
end

