-- ==== Sys2Proof/Safety.lean ====
section
/-! DEFINITION. What holds of every good state (10_state.md R40 and the reserved values of 93_implementation_defined.md
U11), and what a valid, passing run of a host script is (70_reset_and_hazards.md R263). -/

namespace Sys2Proof.Machine

/-- A command is accepted: no wait is in progress and the block is not in the abort state (30_encoding.md R83). -/
def Ready (s : State) : Prop := waiting s.status = false ∧ s.status.abort = false

/-- The relations among the `G_*` registers of a valid geometry (40_geometry.md R111), `bm` being `BM_VALID`. -/
structure GeometryRelations (g : Geometry) (bm : Bool) : Prop where
  /-- item 1: 512 or 1024 bytes a chunk, at least one chunk, and the chunks make up the payload -/
  chunks :
    (g.chunkSize = 512 ∨ g.chunkSize = 1024) ∧ 1 ≤ g.chunkCount.toNat ∧
      g.chunkCount.toNat * g.chunkSize.toNat = g.payloadSize.toNat
  /-- item 2 -/
  metadata : g.metadataSize = 10 ∧ g.auxStatusOff = 12
  /-- item 3: the auxiliary buffer, a multiple of 4, holds the status bytes -/
  auxiliary :
    g.auxSize.toNat = 12 + (g.chunkCount.toNat + 3) / 4 * 4 ∧ g.auxSize.toNat % 4 = 0 ∧
      g.auxStatusOff.toNat + g.chunkCount.toNat ≤ g.auxSize.toNat
  /-- item 4: both bytes that `BSWP` touches lie inside the payload -/
  mark :
    bm = true → g.bmBitOff.toNat < 8 ∧ g.bmByteOff.toNat + 10 ≤ g.payloadSize.toNat ∧
      g.bmByteOff.toNat + 1 < g.payloadSize.toNat
  /-- item 5 -/
  noMark : bm = false → g.bmByteOff = 0 ∧ g.bmBitOff = 0

/-- The values `ERR.CODE` can hold: success and the codes this block raises, not the reserved ones nor 0x05
(60_exceptions.md R211). -/
def errCodes : List Byte := [0x00, 0x01, 0x02, 0x03, 0x04, 0x06, 0x80, 0x81, 0x82]

/-- The invariants of 10_state.md R40 that speak of one state (item 4 compares with operands of the past and item 7 holds
by the type of `WAITST`), with the reserved error codes (U11) and the canonical form of bus space. -/
structure Inv (s : State) : Prop where
  /-- item 1 -/
  noGeometry :
    s.status.geomValid = false →
      s.geom = Geometry.zero ∧ s.status.bmValid = false ∧ s.status.descValid = false ∧ s.status.aggValid = false ∧
        s.status.report = false
  /-- item 2 -/
  geometry : s.status.geomValid = true → GeometryRelations s.geom s.status.bmValid
  /-- item 3 -/
  markNeedsGeometry : s.status.bmValid = true → s.status.geomValid = true
  /-- item 5 -/
  waitNeedsChain : s.status.waitst ≠ .idle → s.status.descValid = true ∧ s.status.abort = false
  /-- item 6 -/
  abortHasNoGeometry : s.status.abort = true → s.status.geomValid = false
  /-- item 8, `WAIT_DMA` -/
  waitDmaUnlatched : s.status.waitst = .waitDma → s.status.dmaL = false
  /-- item 8, `WAIT_ECC` -/
  waitEccUnlatched : s.status.waitst = .waitEcc → s.status.eccL = false ∧ s.status.waitE = true
  /-- item 8, `IDLE` -/
  idleForgetsE : s.status.waitst = .idle → s.status.waitE = false
  /-- reserved error codes are never written (60_exceptions.md R211, U11) -/
  errCode : s.err.code ∈ errCodes
  /-- bus space is in canonical form -/
  memWf : s.mem.wf = true

/-- The states a run can reach from reset, whatever the inputs (10_state.md R40). -/
inductive Reachable : State → Prop where
  /-- reset, with any inputs to come, any build and any canonical bus space -/
  | start (mem : Memory) (build : Build) (inputs : List Action) (h : mem.wf = true) :
      Reachable (State.resetWith mem build inputs .noAccess)
  /-- one more step -/
  | next {s t : State} (hs : Reachable s) (h : step s = .next t) : Reachable t

/-- A list of acts performed one after the other; none where one has no step or is refused at the port, which makes a
script run invalid (70_reset_and_hazards.md R263). -/
def afterActions : List Action → State → Option State
  | [], s => some s
  | a :: rest, s =>
    match perform a { s with reply := .noAccess } with
    | .next t => if t.reply = .busError then none else afterActions rest t
    | .fault _ => none
    | .refused _ => none

/-- The read of a script line saw the value the line states (70_reset_and_hazards.md R263). -/
def sawExpected : ScriptLine → State → Bool
  | .rd _ (some v), t => decide (t.reply = .data v)
  | _, _ => true

/-- A script performed line by line: none where the run is invalid, else the end state and whether every read saw the
stated value (70_reset_and_hazards.md R263). -/
def runScript : List ScriptLine → State → Option (State × Bool)
  | [], s => some (s, true)
  | l :: ls, s =>
    match afterActions (lineActions l) s with
    | none => none
    | some t =>
      match runScript ls t with
      | none => none
      | some (u, ok) => some (u, sawExpected l t && ok)

/-- The script's run from `s` passes with the end state `goal`, the port's last answer apart (70_reset_and_hazards.md
R263). -/
def scriptPasses (ls : List ScriptLine) (s goal : State) : Bool :=
  match runScript ls s with
  | none => false
  | some (t, ok) => ok && decide ({ t with reply := goal.reply } = goal)

end Sys2Proof.Machine
end

