-- ==== Sys2Proof/Certificates/Slice0/Obligations.lean ====
section
/-! DEFINITION. The statements for the provers. Each docstring names the rules of the spec it rests on. The fields `inputs`,
`reply` and `build` of State are the model's own (Logs 1, 9, 7): where a statement says what they hold, that clause is the
model's choice and no rule of the spec. -/

open Sys2Proof Sys2Proof.Machine

/-! ## Encoding -/

/-- The command words of the opcode map, each with the operation it stands for (30_encoding.md R81); 0 is no operation
(R82). -/
def Obligations.CommandWordsDecode : Prop :=
  decodeWord Build.full 0x00000001 = .ok .geom ∧ decodeWord Build.full 0x00000002 = .ok .ginv ∧
    decodeWord Build.full 0x00000003 = .ok .tsyn ∧ decodeWord Build.full 0x00000004 = .ok .dbrd ∧
    decodeWord Build.full 0x00000005 = .ok .dbwr ∧ decodeWord Build.full 0x00000006 = .ok (.pwait false) ∧
    decodeWord Build.full 0x00000106 = .ok (.pwait true) ∧ decodeWord Build.full 0x00000007 = .ok .eagg ∧
    decodeWord Build.full 0x00000008 = .ok .bswp ∧ decodeWord Build.full 0x00000009 = .ok .clrf ∧
    (∃ e, decodeWord Build.full 0x00000000 = .error e) ∧ (∃ e, decodeWord Build.base 0x00000007 = .error e) ∧
    (∃ e, decodeWord Build.base 0x00000008 = .error e)

/-- A word decodes to an operation exactly when the operation belongs to the build and the word is its encoding: decode
and encode agree, and no operation has a second word (30_encoding.md R80, R81). -/
def Obligations.DecodeEncodeAgree : Prop :=
  ∀ (b : Build) (w : Word) (i : Instr), decodeWord b w = .ok i ↔ wellFormed b i = true ∧ encode i = w

/-- A word is illegal exactly in the five cases of 30_encoding.md R82, and outside a wait (R83 step 1) an illegal word
raises `IllegalCommand`, whatever the abort state, and does nothing else. -/
def Obligations.IllegalWordsExactly : Prop :=
  (∀ (b : Build) (w : Word),
      (∃ e, decodeWord b w = .error e) ↔
        (w.extractLsb' 9 23 ≠ 0 ∨ w.extractLsb' 0 8 = 0x00 ∨ 0x0A ≤ (w.extractLsb' 0 8).toNat ∨
          (w.getLsbD 8 = true ∧ w.extractLsb' 0 8 ≠ 0x06) ∨ (w.extractLsb' 0 8 = 0x07 ∧ b.extA = false) ∨
          (w.extractLsb' 0 8 = 0x08 ∧ b.extS = false))) ∧
    ∀ (s : State) (w : Word) (rest : List Action),
      s.inputs = commandInput w :: rest → waiting s.status = false → (∃ e, decodeWord s.build w = .error e) →
        step s = .next { s with inputs := rest, reply := .done, err := { op := w.extractLsb' 0 8, code := 0x80 } }

/-! ## The slave port -/

/-- A command word that decodes runs its operation: the step takes the host's write from the inputs, the port accepts it,
and the rest is `exec` (30_encoding.md R80, R81). `withFetchWord` places such a write. -/
def Obligations.StepRunsDecodedCommand : Prop :=
  (∀ (s : State) (w : Word) (i : Instr) (rest : List Action),
      s.inputs = commandInput w :: rest → decodeWord s.build w = .ok i →
        step s = exec i { s with inputs := rest, reply := .done }) ∧
    ∀ (s : State) (nbits w : Nat) (i : Instr),
      decodeWord s.build (BitVec.ofNat 32 (w % 2 ^ nbits)) = .ok i →
        step (s.withFetchWord nbits w) = exec i { s with reply := .done }

/-- A 32-bit host read at a listed offset answers the register's value and changes nothing else, in every state
(20_memory.md R62, R71). -/
def Obligations.HostReadAnswersRegister : Prop :=
  ∀ (s : State) (off : Word) (r : Reg) (rest : List Action),
    s.inputs = .read .w32 off :: rest → regAt off.toNat = some r →
      step s = .next { s with inputs := rest, reply := .data (readReg s r) }

/-- An access of another width than 32 bits, or at an offset that is not listed, gets a bus error and no state of the block
changes (20_memory.md R62). That it is a next state with the bus error in `reply` is the model's choice (Log 2):
93_implementation_defined.md U10 treats such an access as no step. -/
def Obligations.RefusedAccessChangesNothing : Prop :=
  ∀ (s : State) (w : Width) (off data : Word) (rest : List Action),
    (w ≠ .w32 ∨ regAt off.toNat = none) →
      (s.inputs = .read w off :: rest ∨ s.inputs = .write w off data :: rest) →
        step s = .next { s with inputs := rest, reply := .busError }

/-- During a wait every host write, to any register and `CMD` included, gets a bus error and changes nothing; reads are
accepted (20_memory.md R71). That the refused write is a next state with the bus error in `reply` is the model's choice
(Log 2): R71's last remark and 93_implementation_defined.md U9 treat it as no step. -/
def Obligations.WaitRefusesEveryWrite : Prop :=
  (∀ (s : State) (w : Width) (off data : Word) (rest : List Action),
      s.status.waitst ≠ .idle → s.inputs = .write w off data :: rest →
        step s = .next { s with inputs := rest, reply := .busError }) ∧
    ∀ (s : State) (off : Word) (r : Reg) (rest : List Action),
      s.status.waitst ≠ .idle → s.inputs = .read .w32 off :: rest → regAt off.toNat = some r →
        step s = .next { s with inputs := rest, reply := .data (readReg s r) }

/-- The register map, literally (10_state.md R22): the offset and the access class of every register, the four words of
each table entry included. Every register stands at one offset, a multiple of 4 below 0x180, and every listed offset has one
register. -/
def Obligations.RegisterMapIsOneToOne : Prop :=
  let rows : List (Nat × Reg × Access) :=
    [(0x000, .cmd, .wo), (0x004, .status, .ro), (0x008, .err, .ro), (0x00C, .cfg, .rw), (0x010, .pageSize, .rw),
      (0x014, .oobSize, .rw), (0x020, .gEccStrength, .ro), (0x024, .gChunkSize, .ro), (0x028, .gChunkCount, .ro),
      (0x02C, .gMetadataSize, .ro), (0x030, .gPayloadSize, .ro), (0x034, .gAuxSize, .ro),
      (0x038, .gAuxStatusOff, .ro), (0x03C, .gBmByteOff, .ro), (0x040, .gBmBitOff, .ro),
      (0x050, .tDataSetupNs, .rw), (0x054, .tDataHoldNs, .rw), (0x058, .tAddrSetupNs, .rw),
      (0x05C, .tSampleDelayNs, .rw), (0x060, .tTreaNs, .rw), (0x064, .tTrlohNs, .rw), (0x068, .tTrhohNs, .rw),
      (0x06C, .tKnown, .rw), (0x070, .clkPeriodNs, .rw), (0x074, .cMaxSetupCyc, .rw), (0x078, .cMaxSdf, .rw),
      (0x07C, .cIntSetupNs, .rw), (0x080, .cMaxDllPeriodNs, .rw), (0x084, .cMaxDllDelayNs, .rw),
      (0x088, .cMinPropNs, .rw), (0x08C, .cMaxPropNs, .rw), (0x090, .hDataSetupCyc, .ro),
      (0x094, .hDataHoldCyc, .ro), (0x098, .hAddrSetupCyc, .ro), (0x09C, .hHalfPeriods, .ro), (0x0A0, .hSdf, .ro),
      (0x0B0, .dPayloadAddr, .rw), (0x0B4, .dPayloadLen, .rw), (0x0B8, .dAuxAddr, .rw), (0x0BC, .dAuxLen, .rw),
      (0x0C0, .dPagebufAddr, .rw), (0x0C4, .dPagebufLen, .rw), (0x0C8, .dChainAddr, .rw), (0x0CC, .dChip, .rw),
      (0x0D0, .dCount, .ro), (0x0D4, .dEffPayload, .ro), (0x0D8, .dEffAux, .ro), (0x0E0, .xPayloadAddr, .rw),
      (0x0E4, .xAuxAddr, .rw), (0x0E8, .aFailed, .ro), (0x0EC, .aCorrected, .ro), (0x0F0, .sFailed, .rw),
      (0x0F4, .sCorrected, .rw)]
  (∀ row ∈ rows, regOffset row.2.1 = row.1 ∧ regAt row.1 = some row.2.1 ∧ regAccess row.2.1 = row.2.2) ∧
    (∀ i : Fin 8,
      (regOffset (.tblPage i) = 0x100 + 16 * i.val ∧ regAccess (.tblPage i) = .rw) ∧
        (regOffset (.tblOob i) = 0x104 + 16 * i.val ∧ regAccess (.tblOob i) = .rw) ∧
        (regOffset (.tblStrength i) = 0x108 + 16 * i.val ∧ regAccess (.tblStrength i) = .rw) ∧
        (regOffset (.tblCtrl i) = 0x10C + 16 * i.val ∧ regAccess (.tblCtrl i) = .rw)) ∧
    (∀ r : Reg, regAt (regOffset r) = some r ∧ regOffset r % 4 = 0 ∧ regOffset r < 0x180) ∧
    ∀ (off : Nat) (r : Reg), regAt off = some r → regOffset r = off

/-- A host write outside a wait to a register other than `CMD`: a `RW` register reads back the written bits that it keeps,
a `RO` register keeps its value, and every other register and bus space keep theirs (20_memory.md R62; kept bits
10_state.md R25, R28, R30, R33). -/
def Obligations.HostWriteReadsBack : Prop :=
  (keptMask .cfg = 0x7 ∧ keptMask .tKnown = 0x7 ∧ keptMask .dChip = 0xF ∧ (∀ i, keptMask (.tblCtrl i) = 0x1) ∧
      ∀ r, r ≠ .cfg → r ≠ .tKnown → r ≠ .dChip → (∀ i, r ≠ .tblCtrl i) → keptMask r = 0xFFFFFFFF) ∧
    ∀ (s : State) (r : Reg) (v : Word) (rest : List Action),
      s.inputs = regWrite r v :: rest → waiting s.status = false → r ≠ .cmd →
        ∃ t, step s = .next t ∧ t.reply = .done ∧ t.inputs = rest ∧ t.mem = s.mem ∧ t.build = s.build ∧
          (regAccess r = .rw → readReg t r = v &&& keptMask r) ∧
          ∀ r', (r' ≠ r ∨ regAccess r = .ro) → readReg t r' = readReg s r'

/-- The fields of `STATUS` stand at their bits and bits 31:16 read 0 (10_state.md R24); `ERR` has `CODE` in bits 7:0, `OP`
in bits 15:8 and 0 above (R26). -/
def Obligations.StatusAndErrFieldsAtTheirBits : Prop :=
  ∀ s : State,
    let w := readReg s .status
    (w.getLsbD 0 = s.status.geomValid ∧ w.getLsbD 1 = s.status.bmValid ∧ w.getLsbD 2 = s.status.timingValid ∧
        w.getLsbD 3 = s.status.twarn ∧ w.getLsbD 4 = s.status.descValid ∧ w.getLsbD 5 = s.status.descWr ∧
        w.getLsbD 6 = s.status.bounceP ∧ w.getLsbD 7 = s.status.bounceA ∧
        w.extractLsb' 8 2 = (match s.status.waitst with | .idle => 0 | .waitDma => 1 | .waitEcc => 2) ∧
        w.getLsbD 10 = s.status.dmaL ∧ w.getLsbD 11 = s.status.eccL ∧ w.getLsbD 12 = s.status.aggValid ∧
        w.getLsbD 13 = s.status.report ∧ w.getLsbD 14 = s.status.waitE ∧ w.getLsbD 15 = s.status.abort ∧
        w.extractLsb' 16 16 = 0) ∧
      (readReg s .err).extractLsb' 0 8 = s.err.code ∧ (readReg s .err).extractLsb' 8 8 = s.err.op ∧
      (readReg s .err).extractLsb' 16 16 = 0

/-- Which field of the state each register but `STATUS` and `ERR` reads: `CFG` has `SWAP`, `CHUNK1K`, `BUS16` in bits 0, 1, 2
(10_state.md R25), the operands and the results are whole words or the bits they keep (R27 to R36), `CMD` reads 0 (R23), and
reserved bits read 0. The other statements say what the operations do to these fields. -/
def Obligations.RegistersReadTheirFields : Prop :=
  ∀ s : State,
    (readReg s .pageSize = s.pageSize ∧ readReg s .oobSize = s.oobSize ∧ readReg s .cmd = 0) ∧
      ((readReg s .cfg).getLsbD 0 = s.cfg.swap ∧ (readReg s .cfg).getLsbD 1 = s.cfg.chunk1k ∧
        (readReg s .cfg).getLsbD 2 = s.cfg.bus16 ∧ (readReg s .cfg).extractLsb' 3 29 = 0) ∧
      (readReg s .gEccStrength = s.geom.eccStrength ∧ readReg s .gChunkSize = s.geom.chunkSize ∧
        readReg s .gChunkCount = s.geom.chunkCount ∧ readReg s .gMetadataSize = s.geom.metadataSize ∧
        readReg s .gPayloadSize = s.geom.payloadSize ∧ readReg s .gAuxSize = s.geom.auxSize ∧
        readReg s .gAuxStatusOff = s.geom.auxStatusOff ∧ readReg s .gBmByteOff = s.geom.bmByteOff ∧
        readReg s .gBmBitOff = s.geom.bmBitOff) ∧
      (readReg s .tDataSetupNs = s.target.dataSetupNs ∧ readReg s .tDataHoldNs = s.target.dataHoldNs ∧
        readReg s .tAddrSetupNs = s.target.addrSetupNs ∧ readReg s .tSampleDelayNs = s.target.sampleDelayNs ∧
        readReg s .tTreaNs = s.target.treaNs ∧ readReg s .tTrlohNs = s.target.trlohNs ∧
        readReg s .tTrhohNs = s.target.trhohNs ∧ readReg s .clkPeriodNs = s.target.clkPeriodNs ∧
        (readReg s .tKnown).extractLsb' 0 3 = s.target.known ∧ (readReg s .tKnown).extractLsb' 3 29 = 0) ∧
      (readReg s .cMaxSetupCyc = s.limits.maxSetupCyc ∧ readReg s .cMaxSdf = s.limits.maxSdf ∧
        readReg s .cIntSetupNs = s.limits.intSetupNs ∧ readReg s .cMaxDllPeriodNs = s.limits.maxDllPeriodNs ∧
        readReg s .cMaxDllDelayNs = s.limits.maxDllDelayNs ∧ readReg s .cMinPropNs = s.limits.minPropNs ∧
        readReg s .cMaxPropNs = s.limits.maxPropNs) ∧
      (readReg s .hDataSetupCyc = s.timing.dataSetupCyc ∧ readReg s .hDataHoldCyc = s.timing.dataHoldCyc ∧
        readReg s .hAddrSetupCyc = s.timing.addrSetupCyc ∧ readReg s .hSdf = s.timing.sdf ∧
        (readReg s .hHalfPeriods).getLsbD 0 = s.timing.halfPeriods ∧
        (readReg s .hHalfPeriods).extractLsb' 1 31 = 0) ∧
      (readReg s .dPayloadAddr = s.dma.payloadAddr ∧ readReg s .dPayloadLen = s.dma.payloadLen ∧
        readReg s .dAuxAddr = s.dma.auxAddr ∧ readReg s .dAuxLen = s.dma.auxLen ∧
        readReg s .dPagebufAddr = s.dma.pagebufAddr ∧ readReg s .dPagebufLen = s.dma.pagebufLen ∧
        readReg s .dChainAddr = s.dma.chainAddr ∧ readReg s .dCount = s.chain.count ∧
        readReg s .dEffPayload = s.chain.effPayload ∧ readReg s .dEffAux = s.chain.effAux ∧
        (readReg s .dChip).extractLsb' 0 4 = s.dma.chip ∧ (readReg s .dChip).extractLsb' 4 28 = 0) ∧
      (readReg s .xPayloadAddr = s.ext.payloadAddr ∧ readReg s .xAuxAddr = s.ext.auxAddr ∧
        readReg s .aFailed = s.agg.failed ∧ readReg s .aCorrected = s.agg.corrected ∧
        readReg s .sFailed = s.sums.failed ∧ readReg s .sCorrected = s.sums.corrected) ∧
      ∀ i : Fin 8,
        readReg s (.tblPage i) = s.table[i].page ∧ readReg s (.tblOob i) = s.table[i].oob ∧
          readReg s (.tblStrength i) = s.table[i].strength ∧
          (readReg s (.tblCtrl i)).getLsbD 0 = s.table[i].valid ∧ (readReg s (.tblCtrl i)).extractLsb' 1 31 = 0

/-- After reset every register reads 0, whatever the state before, and bus space keeps its contents (10_state.md R38,
70_reset_and_hazards.md R250). -/
def Obligations.ResetReadsZero : Prop :=
  (∀ r : Reg, readReg State.reset r = 0) ∧
    ∀ (s : State) (rest : List Action),
      s.inputs = .reset :: rest →
        ∃ t, step s = .next t ∧ (∀ r : Reg, readReg t r = 0) ∧ t.mem = s.mem

/-! ## Commands in general -/

/-- Every operation answers a next state, in every state: no fault, no refusal (00_scope.md R15 for an operation that runs).
That it does so during a wait too, where the port refuses the command, is the model's choice (Log 2); so is that the model
has no fault at all (Log 21). -/
def Obligations.EveryCommandEnds : Prop :=
  ∀ (i : Instr) (s : State), ∃ t, exec i s = .next t

/-- In the abort state every operation but `CLRF` raises `IllegalSequence` and does nothing else; register writes work,
and completion events still set the latches (60_exceptions.md R216). -/
def Obligations.AbortStateTurnsCommandsAway : Prop :=
  (∀ (i : Instr) (s : State),
      waiting s.status = false → s.status.abort = true → i ≠ .clrf →
        exec i s = .next { s with err := { op := opByte i, code := 0x81 } }) ∧
    (∀ (s : State) (r : Reg) (v : Word) (rest : List Action),
      waiting s.status = false → s.status.abort = true → r ≠ .cmd → s.inputs = regWrite r v :: rest →
        step s = .next (writeReg { s with inputs := rest, reply := .done } v r)) ∧
    ∀ (s : State) (rest : List Action),
      waiting s.status = false → s.status.abort = true →
        (s.inputs = .event .dmaDone :: rest →
          step s = .next { s with inputs := rest, status := { s.status with dmaL := true } }) ∧
        (s.inputs = .event .eccDone :: rest →
          step s = .next { s with inputs := rest, status := { s.status with eccL := true } })

/-- Error entry for every error this block raises, with its code (60_exceptions.md R211): `ERR` gets the code and the
operation byte; the two geometry errors set `ABORT`; the two timeouts end the wait and drop the chain; nothing else changes
(R214). -/
def Obligations.ErrorEntryByCode : Prop :=
  ∀ (op : Byte) (s : State),
    takeError op .unsupportedGeometry s =
        { s with err := { op := op, code := 0x01 }, status := { s.status with abort := true } } ∧
      takeError op .blockMarkInEccRegion s =
        { s with err := { op := op, code := 0x02 }, status := { s.status with abort := true } } ∧
      takeError op .dmaTimeout s =
        { s with
          err := { op := op, code := 0x03 }
          status := { s.status with waitst := .idle, waitE := false, descValid := false } } ∧
      takeError op .eccTimeout s =
        { s with
          err := { op := op, code := 0x04 }
          status := { s.status with waitst := .idle, waitE := false, descValid := false } } ∧
      takeError op .inadequateDmaBuffer s = { s with err := { op := op, code := 0x06 } } ∧
      takeError op .illegalCommand s = { s with err := { op := op, code := 0x80 } } ∧
      takeError op .illegalSequence s = { s with err := { op := op, code := 0x81 } } ∧
      takeError op .badOperand s = { s with err := { op := op, code := 0x82 } }

/-- A command that raises an error writes `ERR` and, for the two geometry errors, `ABORT`, and nothing else: no result
register, no other flag, no byte of bus space (60_exceptions.md R214, R219). -/
def Obligations.FailedCommandWritesOnlyErr : Prop :=
  ∀ (i : Instr) (s t : State),
    waiting s.status = false → exec i s = .next t → t.err.code ≠ 0 →
      t =
        { s with
          err := { op := opByte i, code := t.err.code }
          status :=
            { s.status with
              abort := s.status.abort || (t.err.code == 0x01 || t.err.code == 0x02) } }

/-- Each operation raises only the errors the table of 60_exceptions.md R212 gives it, and with `CFG.SWAP = 0` not
`BlockMarkInEccRegion`. -/
def Obligations.OnlyListedErrorsAreRaised : Prop :=
  ∀ (i : Instr) (s t : State),
    waiting s.status = false → exec i s = .next t →
      (t.err.code ∈
          (match i with
            | .geom => ([0x00, 0x81, 0x82, 0x01, 0x02] : List Byte)
            | .ginv => [0x00, 0x81]
            | .tsyn => [0x00, 0x81, 0x82]
            | .dbrd => [0x00, 0x81, 0x82, 0x06]
            | .dbwr => [0x00, 0x81, 0x82, 0x06]
            | .pwait _ => [0x00, 0x81]
            | .eagg => [0x00, 0x81]
            | .bswp => [0x00, 0x81]
            | .clrf => [0x00])) ∧
        (s.cfg.swap = false → t.err.code ≠ 0x02)

/-- The first command after reset (70_reset_and_hazards.md R252): error code, operation number and abort state. -/
def Obligations.FirstCommandAfterReset : Prop :=
  exec .geom State.reset =
      .next
        { State.reset with
          err := { op := 0x01, code := 0x01 }, status := { State.reset.status with abort := true } } ∧
    exec .tsyn State.reset = .next { State.reset with err := { op := 0x03, code := 0x82 } } ∧
    exec .dbrd State.reset = .next { State.reset with err := { op := 0x04, code := 0x81 } } ∧
    exec .dbwr State.reset = .next { State.reset with err := { op := 0x05, code := 0x81 } } ∧
    exec .eagg State.reset = .next { State.reset with err := { op := 0x07, code := 0x81 } } ∧
    exec .bswp State.reset = .next { State.reset with err := { op := 0x08, code := 0x81 } } ∧
    (∀ e, exec (.pwait e) State.reset = .next { State.reset with err := { op := 0x06, code := 0x81 } }) ∧
    exec .ginv State.reset = .next { State.reset with err := { op := 0x02, code := 0x00 } } ∧
    exec .clrf State.reset = .next State.reset

/-! ## Geometry -/

/-- `GEOM` with a match at the least index `hit`, a page that is a positive multiple of the chunk size and, with swapping
on, a block mark in data bits: the nine registers and the two flags (40_geometry.md R100, R102 to R107), whatever the parity
function `Config.eccBits` is. Nothing else changes. -/
def Obligations.GeomComputesGeometry : Prop :=
  ∀ (s : State) (hit : Fin 8),
    let page := s.pageSize.toNat
    let csz := if s.cfg.chunk1k then 1024 else 512
    let n := page / csz
    let strength := s.table[hit].strength
    let d := csz * 8
    let ecc := Config.eccBits csz strength.toNat
    let mark := page * 8 - 80
    let k := mark / (d + ecc)
    let bd := mark - k * ecc
    Ready s → s.status.geomValid = false →
      (s.table[hit].valid = true ∧ s.table[hit].page = s.pageSize ∧ s.table[hit].oob = s.oobSize) →
      (∀ j : Fin 8, j < hit →
        ¬(s.table[j].valid = true ∧ s.table[j].page = s.pageSize ∧ s.table[j].oob = s.oobSize)) →
      page ≠ 0 → page % csz = 0 → (s.cfg.swap = true → mark - k * (d + ecc) < d) →
        exec .geom s =
          .next
            { s with
              geom :=
                { eccStrength := strength, chunkSize := BitVec.ofNat 32 csz, chunkCount := BitVec.ofNat 32 n
                  metadataSize := 10, payloadSize := s.pageSize
                  auxSize := BitVec.ofNat 32 (12 + (n + 3) / 4 * 4), auxStatusOff := 12
                  bmByteOff := BitVec.ofNat 32 (if s.cfg.swap then bd / 8 else 0)
                  bmBitOff := BitVec.ofNat 32 (if s.cfg.swap then bd % 8 else 0) }
              status := { s.status with geomValid := true, bmValid := s.cfg.swap }
              err := { op := 0x01, code := 0x00 } }

/-- `GEOM` while a geometry is valid raises `IllegalSequence` and changes nothing else (40_geometry.md R101). -/
def Obligations.GeomNeedsTeardown : Prop :=
  ∀ s : State, Ready s → s.status.geomValid = true →
    exec .geom s = .next { s with err := { op := 0x01, code := 0x81 } }

/-- The errors of the geometry computation, each exactly when and in the order 40_geometry.md R108 says, for every parity
function: no match; a match with a page of 0 or no multiple of the chunk size; a block mark in parity bits (R106). -/
def Obligations.GeometryErrorsExactly : Prop :=
  ∀ (ecc : Nat → Nat → Nat) (page oob : Word) (c : Cfg) (t : Vector TableEntry 8),
    let hits := fun e : TableEntry => e.valid = true ∧ e.page = page ∧ e.oob = oob
    let csz := if c.chunk1k then 1024 else 512
    let badPage := page = 0 ∨ page.toNat % csz ≠ 0
    (computeGeometry ecc page oob c t = .error .unsupportedGeometry ↔ ∀ i : Fin 8, ¬hits t[i]) ∧
      (computeGeometry ecc page oob c t = .error .badOperand ↔ (∃ i : Fin 8, hits t[i]) ∧ badPage) ∧
      (computeGeometry ecc page oob c t = .error .blockMarkInEccRegion ↔
        ¬badPage ∧ c.swap = true ∧
          ∃ i : Fin 8, hits t[i] ∧ (∀ j : Fin 8, j < i → ¬hits t[j]) ∧
            (let e := ecc csz t[i].strength.toNat
              let mark := page.toNat * 8 - 80
              csz * 8 ≤ mark - mark / (csz * 8 + e) * (csz * 8 + e)))

/-- `GEOM` raises the computation's error, one of three: `ERR` gets the code 0x01 for `UnsupportedGeometry`, 0x02 for
`BlockMarkInEccRegion`, 0x82 for `BadOperand` (60_exceptions.md R211); the two errors of the document's taxonomy enter the
abort state, and nothing else changes (40_geometry.md R108, 60_exceptions.md R214). -/
def Obligations.GeomTakesItsError : Prop :=
  ∀ (s : State) (e : ErrCode),
    Ready s → s.status.geomValid = false →
      computeGeometry Config.eccBits s.pageSize s.oobSize s.cfg s.table = .error e →
        (e = .unsupportedGeometry ∨ e = .blockMarkInEccRegion ∨ e = .badOperand) ∧
          exec .geom s =
            .next
              { s with
                err :=
                  { op := 0x01
                    code := if e = .unsupportedGeometry then 0x01 else if e = .blockMarkInEccRegion then 0x02 else 0x82 }
                status := { s.status with abort := decide (e = .unsupportedGeometry ∨ e = .blockMarkInEccRegion) } }

/-- Every geometry that the computation accepts meets the relations of 40_geometry.md R111, for every parity function, and
its payload is the page. -/
def Obligations.AcceptedGeometryRelations : Prop :=
  ∀ (ecc : Nat → Nat → Nat) (page oob : Word) (c : Cfg) (t : Vector TableEntry 8) (g : Geometry),
    computeGeometry ecc page oob c t = .ok g → GeometryRelations g c.swap ∧ g.payloadSize = page

/-- `GINV` zeroes the nine `G_*` registers and clears five flags; everything else keeps its value (40_geometry.md R113). -/
def Obligations.GinvDiscardsGeometry : Prop :=
  ∀ s : State, Ready s →
    exec .ginv s =
      .next
        { s with
          geom :=
            { eccStrength := 0, chunkSize := 0, chunkCount := 0, metadataSize := 0, payloadSize := 0, auxSize := 0
              auxStatusOff := 0, bmByteOff := 0, bmBitOff := 0 }
          status :=
            { s.status with
              geomValid := false, bmValid := false, descValid := false, aggValid := false, report := false }
          err := { op := 0x02, code := 0x00 } }

/-! ## Timing -/

/-- `TSYN` on the Basic path (41_timing.md R120 to R127, R134 to R136): the trade takes `n` turns, at most `C_MAX_SETUP_CYC`
(R140), and stops because the delay is in range or setup cycles are exhausted. Nothing else changes. -/
def Obligations.TsynBasicPath : Prop :=
  ∀ s : State,
    let p := s.target.clkPeriodNs.toNat
    let maxc := s.limits.maxSetupCyc.toNat
    let maxf := s.limits.maxSdf.toNat
    let dllPeriod := s.limits.maxDllPeriodNs.toNat
    let half := decide (p > dllPeriod / 2)
    let ddf := if half then 16 else 8
    let maxdelay := if p > dllPeriod then 0 else min (maxf * p / ddf) s.limits.maxDllDelayNs.toNat
    let cyc := fun ns : Word => min ((ns.toNat + p - 1) / p) maxc
    let setup := cyc s.target.dataSetupNs
    let ideal := s.target.sampleDelayNs.toNat + s.limits.intSetupNs.toNat
    Ready s → s.target.clkPeriodNs ≠ 0 → s.target.known ≠ 0b111 →
      ∃ n, n ≤ maxc ∧ (∀ m, m < n → ideal - m * p > maxdelay ∧ setup + m < maxc) ∧
        ¬(ideal - n * p > maxdelay ∧ setup + n < maxc) ∧
        exec .tsyn s =
          .next
            { s with
              timing :=
                { dataSetupCyc := BitVec.ofNat 32 (setup + n), dataHoldCyc := BitVec.ofNat 32 (cyc s.target.dataHoldNs)
                  addrSetupCyc := BitVec.ofNat 32 (cyc s.target.addrSetupNs), halfPeriods := half
                  sdf := BitVec.ofNat 32 (min (((ideal - n * p) * ddf + p - 1) / p) maxf) }
              status := { s.status with timingValid := true, twarn := decide (ideal - n * p > maxdelay) }
              err := { op := 0x03, code := 0x00 } }

/-- `TSYN` on the Eye-aware path (41_timing.md R120 to R126, R128 to R136). The eye is opened in `n₁` turns, then the sample
point is centred in `n₂` turns of `turn` on (setup, factor), the ideal delay being the midpoint of the current eye; both
loops keep the bounds of R140 and stop because their condition ends. Nothing else changes. -/
def Obligations.TsynEyeAwarePath : Prop :=
  ∀ s : State,
    let p := s.target.clkPeriodNs.toNat
    let maxc := s.limits.maxSetupCyc.toNat
    let maxf := s.limits.maxSdf.toNat
    let half := decide (p > s.limits.maxDllPeriodNs.toNat / 2)
    let ddf := if half then 16 else 8
    let cyc := fun ns : Word => min ((ns.toNat + p - 1) / p) maxc
    let opening : Int := (s.limits.maxPropNs.toNat : Int) + (s.target.treaNs.toNat : Int)
    let closeb : Int := (s.limits.minPropNs.toNat : Int) + (s.target.trhohNs.toNat : Int)
    let teye := fun c : Nat => closeb + (c : Int) * (p : Int) - opening
    let ideal := fun c : Nat => max (0 : Int) ((opening + closeb - (c : Int) * (p : Int)) / 2)
    let factor := fun c : Nat => min (((ideal c).toNat * ddf + p - 1) / p) maxf
    let quant := fun f : Nat => f * p / ddf
    let outside := fun x : Nat × Nat => |(quant x.2 : Int) - ideal x.1| > teye x.1 / 2
    let turn := fun x : Nat × Nat =>
      if (quant x.2 : Int) > ideal x.1 then (x.1, x.2 - 1) else (x.1 + 1, factor (x.1 + 1))
    let setup := cyc s.target.dataSetupNs
    Ready s → s.target.clkPeriodNs ≠ 0 → s.target.known = 0b111 →
      ∃ n₁ n₂ : Nat,
        let start := (setup + n₁, factor (setup + n₁))
        let final := turn^[n₂] start
        n₁ ≤ maxc ∧ n₂ ≤ maxc * (maxf + 1) + maxf ∧
          (∀ m, m < n₁ → teye (setup + m) ≤ 0 ∧ setup + m < maxc) ∧
          ¬(teye (setup + n₁) ≤ 0 ∧ setup + n₁ < maxc) ∧
          (∀ m, m < n₂ → outside (turn^[m] start) ∧ (turn^[m] start).1 < maxc) ∧ ¬(outside final ∧ final.1 < maxc) ∧
          exec .tsyn s =
            .next
              { s with
                timing :=
                  { dataSetupCyc := BitVec.ofNat 32 final.1
                    dataHoldCyc := BitVec.ofNat 32 (cyc s.target.dataHoldNs)
                    addrSetupCyc := BitVec.ofNat 32 (cyc s.target.addrSetupNs), halfPeriods := half
                    sdf := BitVec.ofNat 32 final.2 }
                status :=
                  { s.status with timingValid := true, twarn := decide (teye final.1 ≤ 0 ∨ outside final) }
                err := { op := 0x03, code := 0x00 } }

/-- The clamp invariant (41_timing.md R142): for every operand state with a clock period of at least 1, the results of
`TSYN` keep the maxima, and data setup is not below its clamped target. -/
def Obligations.TsynClampInvariant : Prop :=
  ∀ s : State, Ready s → 1 ≤ s.target.clkPeriodNs.toNat →
    ∃ t, exec .tsyn s = .next t ∧ (readReg t .hDataSetupCyc).toNat ≤ s.limits.maxSetupCyc.toNat ∧
      (readReg t .hDataHoldCyc).toNat ≤ s.limits.maxSetupCyc.toNat ∧
      (readReg t .hAddrSetupCyc).toNat ≤ s.limits.maxSetupCyc.toNat ∧
      (readReg t .hSdf).toNat ≤ s.limits.maxSdf.toNat ∧ (readReg t .hHalfPeriods).toNat ≤ 1 ∧
      min ((s.target.dataSetupNs.toNat + s.target.clkPeriodNs.toNat - 1) / s.target.clkPeriodNs.toNat)
          s.limits.maxSetupCyc.toNat ≤ (readReg t .hDataSetupCyc).toNat

/-- `TSYN` raises `BadOperand` for a clock period of 0 and no other error of its own; it never sets `ABORT`
(41_timing.md R137). -/
def Obligations.TsynErrors : Prop :=
  ∀ s : State, Ready s →
    (s.target.clkPeriodNs = 0 → exec .tsyn s = .next { s with err := { op := 0x03, code := 0x82 } }) ∧
      (s.target.clkPeriodNs ≠ 0 →
        ∃ t, exec .tsyn s = .next t ∧ t.err = { op := 0x03, code := 0x00 } ∧ t.status.abort = false)

/-! ## Descriptor chains -/

/-- `DBRD` writes the twenty little-endian words of the read chain from `D_CHAIN_ADDR` upward, `mod 2^32`, and no other byte;
it writes the `D_*` results and flags, and clears the latches (42_pipeline.md R151 to R157, R161). -/
def Obligations.DbrdBuildsReadChain : Prop :=
  ∀ s : State,
    let g := s.geom
    let o := s.dma
    let bp := decide (o.payloadLen.toNat < g.payloadSize.toNat)
    let ba := decide (o.auxLen.toNat < g.auxSize.toNat)
    let effP := if bp then o.pagebufAddr else o.payloadAddr
    let effA := if ba then o.pagebufAddr + g.payloadSize else o.auxAddr
    let count := if s.cfg.bus16 then BitVec.ofNat 32 (g.payloadSize.toNat / 2) else g.payloadSize
    let chip : Word := o.chip.setWidth 32 <<< 12
    let c := o.chainAddr
    let words : List Word :=
      [c + 20, 0x039 ||| chip, 0, 0, 0, c + 40, 0x12A ||| chip, count, effP, effA, c + 60, 0x03B ||| chip, 0, 0, 0,
        0, 0x044 ||| chip, 0, 0, 0]
    Ready s → s.status.geomValid = true → s.mem.wf = true → c.toNat % 4 = 0 →
      (bp = true ∨ ba = true → g.payloadSize.toNat + g.auxSize.toNat ≤ o.pagebufLen.toNat) →
        ∃ m, exec .dbrd s =
            .next
              { s with
                mem := m
                chain := { count := 4, effPayload := effP, effAux := effA }
                status :=
                  { s.status with
                    descValid := true, descWr := false, bounceP := bp, bounceA := ba, dmaL := false, eccL := false }
                err := { op := 0x04, code := 0x00 } } ∧
          ∀ a : Word, readByte m a =
            if (a - c).toNat < 80 then (words.getD ((a - c).toNat / 4) 0).extractLsb' (8 * ((a - c).toNat % 4)) 8
            else readByte s.mem a

/-- `DBWR` writes the fifteen words of the write chain likewise; its count is never halved (42_pipeline.md R151 to R154, R156,
R157, R161). -/
def Obligations.DbwrBuildsWriteChain : Prop :=
  ∀ s : State,
    let g := s.geom
    let o := s.dma
    let bp := decide (o.payloadLen.toNat < g.payloadSize.toNat)
    let ba := decide (o.auxLen.toNat < g.auxSize.toNat)
    let effP := if bp then o.pagebufAddr else o.payloadAddr
    let effA := if ba then o.pagebufAddr + g.payloadSize else o.auxAddr
    let chip : Word := o.chip.setWidth 32 <<< 12
    let c := o.chainAddr
    let words : List Word :=
      [c + 20, 0x2AA ||| chip, g.payloadSize + g.auxSize, effP, effA, c + 40, 0x02B ||| chip, 0, 0, 0,
        0, 0x044 ||| chip, 0, 0, 0]
    Ready s → s.status.geomValid = true → s.mem.wf = true → c.toNat % 4 = 0 →
      (bp = true ∨ ba = true → g.payloadSize.toNat + g.auxSize.toNat ≤ o.pagebufLen.toNat) →
        ∃ m, exec .dbwr s =
            .next
              { s with
                mem := m
                chain := { count := 3, effPayload := effP, effAux := effA }
                status :=
                  { s.status with
                    descValid := true, descWr := true, bounceP := bp, bounceA := ba, dmaL := false, eccL := false }
                err := { op := 0x05, code := 0x00 } } ∧
          ∀ a : Word, readByte m a =
            if (a - c).toNat < 60 then (words.getD ((a - c).toNat / 4) 0).extractLsb' (8 * ((a - c).toNat % 4)) 8
            else readByte s.mem a

/-- The errors of `DBRD` and `DBWR`, in the order met; after each only `ERR` is written (42_pipeline.md R158). -/
def Obligations.BuilderErrorsInOrder : Prop :=
  ∀ (s : State) (i : Instr), i = .dbrd ∨ i = .dbwr → Ready s →
    (s.status.geomValid = false → exec i s = .next { s with err := { op := opByte i, code := 0x81 } }) ∧
      (s.status.geomValid = true → s.dma.chainAddr.toNat % 4 ≠ 0 →
        exec i s = .next { s with err := { op := opByte i, code := 0x82 } }) ∧
      (s.status.geomValid = true → s.dma.chainAddr.toNat % 4 = 0 →
        (s.dma.payloadLen.toNat < s.geom.payloadSize.toNat ∨ s.dma.auxLen.toNat < s.geom.auxSize.toNat) →
        s.dma.pagebufLen.toNat < s.geom.payloadSize.toNat + s.geom.auxSize.toNat →
          exec i s = .next { s with err := { op := opByte i, code := 0x06 } })

/-! ## Completions -/

/-- `PWAIT` and `PWAIT.E` (42_pipeline.md R162, R163): without a chain `IllegalSequence`; else the wait begins and, in the same
step, goes on as far as the latches allow. Nothing else changes. -/
def Obligations.PwaitWaitsForLatches : Prop :=
  ∀ (s : State) (e : Bool), Ready s →
    (s.status.descValid = false → exec (.pwait e) s = .next { s with err := { op := 0x06, code := 0x81 } }) ∧
      (s.status.descValid = true →
        exec (.pwait e) s =
          .next
            { s with
              err := { op := 0x06, code := 0x00 }
              status :=
                if s.status.dmaL = false then { s.status with waitst := .waitDma, waitE := e }
                else if e = false then
                  { s.status with waitst := .idle, waitE := false, descValid := false, dmaL := false }
                else if s.status.eccL = false then { s.status with waitst := .waitEcc, waitE := true, dmaL := false }
                else
                  { s.status with
                    waitst := .idle, waitE := false, descValid := false, dmaL := false, eccL := false } })

/-- What the event `dma_done` does in each wait state (60_exceptions.md R220, 42_pipeline.md R163); in `WAIT_ECC` the ECC latch
is clear, as 10_state.md R40 item 8 says. -/
def Obligations.DmaDoneEvent : Prop :=
  ∀ (s : State) (rest : List Action), s.inputs = .event .dmaDone :: rest →
    (s.status.waitst = .idle → step s = .next { s with inputs := rest, status := { s.status with dmaL := true } }) ∧
      (s.status.waitst = .waitDma → s.status.waitE = false →
        step s =
          .next
            { s with
              inputs := rest
              err := { op := 0x06, code := 0x00 }
              status := { s.status with waitst := .idle, waitE := false, descValid := false, dmaL := false } }) ∧
      (s.status.waitst = .waitDma → s.status.waitE = true → s.status.eccL = false →
        step s =
          .next { s with inputs := rest, status := { s.status with waitst := .waitEcc, dmaL := false } }) ∧
      (s.status.waitst = .waitDma → s.status.waitE = true → s.status.eccL = true →
        step s =
          .next
            { s with
              inputs := rest
              err := { op := 0x06, code := 0x00 }
              status :=
                { s.status with
                  waitst := .idle, waitE := false, descValid := false, dmaL := false, eccL := false } }) ∧
      (s.status.waitst = .waitEcc → s.status.eccL = false →
        step s = .next { s with inputs := rest, status := { s.status with dmaL := true } })

/-- What the event `ecc_done` does in each wait state (60_exceptions.md R220, 42_pipeline.md R163); in `WAIT_DMA` the DMA latch
is clear, as 10_state.md R40 item 8 says. -/
def Obligations.EccDoneEvent : Prop :=
  ∀ (s : State) (rest : List Action), s.inputs = .event .eccDone :: rest →
    (s.status.waitst = .idle → step s = .next { s with inputs := rest, status := { s.status with eccL := true } }) ∧
      (s.status.waitst = .waitDma → s.status.dmaL = false →
        step s = .next { s with inputs := rest, status := { s.status with eccL := true } }) ∧
      (s.status.waitst = .waitEcc →
        step s =
          .next
            { s with
              inputs := rest
              err := { op := 0x06, code := 0x00 }
              status := { s.status with waitst := .idle, waitE := false, descValid := false, eccL := false } })

/-- A timeout ends its own wait with its error and drops the chain; outside its wait state it is not enabled: the model has
no step for it (60_exceptions.md R223, 42_pipeline.md R163). -/
def Obligations.TimeoutEndsItsWait : Prop :=
  ∀ (s : State) (rest : List Action),
    (s.inputs = .event .dmaTimeout :: rest →
        (s.status.waitst = .waitDma →
          step s =
            .next
              { s with
                inputs := rest
                err := { op := 0x06, code := 0x03 }
                status := { s.status with waitst := .idle, waitE := false, descValid := false } }) ∧
          (s.status.waitst ≠ .waitDma → step s = .refused .dmaTimeoutNotEnabled)) ∧
      (s.inputs = .event .eccTimeout :: rest →
        (s.status.waitst = .waitEcc →
          step s =
            .next
              { s with
                inputs := rest
                err := { op := 0x06, code := 0x04 }
                status := { s.status with waitst := .idle, waitE := false, descValid := false } }) ∧
          (s.status.waitst ≠ .waitEcc → step s = .refused .eccTimeoutNotEnabled))

/-- During the `WAIT_DMA` of a `PWAIT.E` the two completions may come in either order: both orders end in the same state,
idle, with code 0 (60_exceptions.md R224 (b)). -/
def Obligations.CompletionOrderDoesNotMatter : Prop :=
  ∀ s : State,
    s.status.waitst = .waitDma → s.status.waitE = true → s.status.dmaL = false → s.status.eccL = false →
      ∃ t, Host.Core.run Sys2Proof.core 2 { s with inputs := [.event .dmaDone, .event .eccDone] } = .next t ∧
        Host.Core.run Sys2Proof.core 2 { s with inputs := [.event .eccDone, .event .dmaDone] } = .next t ∧
        t.status.waitst = .idle ∧ t.err = { op := 0x06, code := 0x00 } ∧ t.status.dmaL = false ∧ t.status.eccL = false

/-! ## Extensions -/

/-- `EAGG` (43_eccagg_swap.md R180 to R184): the failed chunks are the status bytes that are the uncorrectable sentinel and no
earlier one, the corrected bits are the sum of the bytes that are no sentinel; the totals take them only when the threshold,
over the integers, is met. No byte of bus space and nothing else changes, whatever the sentinels are. -/
def Obligations.EaggSumsStatusBytes : Prop :=
  ∀ s : State,
    let bytes :=
      (List.range s.geom.chunkCount.toNat).map fun i =>
        readByte s.mem (s.ext.auxAddr + s.geom.auxStatusOff + BitVec.ofNat 32 i)
    let failed :=
      (bytes.filter fun v => v ≠ Config.stErased ∧ v ≠ Config.stClean ∧ v = Config.stUncorr).length
    let corrected :=
      (bytes.map fun v =>
        if v = Config.stErased ∨ v = Config.stClean ∨ v = Config.stUncorr then 0 else v.toNat).sum
    let report := decide (failed > 0 ∨ (corrected : Int) ≥ (s.geom.eccStrength.toNat : Int) - 1)
    Ready s → s.status.geomValid = true →
      exec .eagg s =
        .next
          { s with
            agg := { failed := BitVec.ofNat 32 failed, corrected := BitVec.ofNat 32 corrected }
            sums :=
              if report then
                { failed := BitVec.ofNat 32 (s.sums.failed.toNat + failed)
                  corrected := BitVec.ofNat 32 (s.sums.corrected.toNat + corrected) }
              else s.sums
            status := { s.status with aggValid := true, report := report }
            err := { op := 0x07, code := 0x00 } }

/-- The document's two properties of the aggregation, for every three sentinels (43_eccagg_swap.md R186 (a), (b)): all bytes
erased give (0, 0), which changes no total, and is not reported for a strength of 2 or more; one uncorrectable byte among
clean ones gives (1, 0), which is reported for every strength. -/
def Obligations.SentinelArrays : Prop :=
  ∀ (c : Sentinels) (m : Memory) (n : Nat) (a : Word),
    ((∀ i, i < n → readByte m (a + BitVec.ofNat 32 i) = c.erased) →
        aggregate c m n a 0 0 = (0, 0) ∧ (∀ s : State, (latchAggregate 0 0 s).sums = s.sums) ∧
          ∀ strength, 2 ≤ strength → reportable 0 0 strength = false) ∧
      ∀ j, j < n → c.uncorr ≠ c.erased → c.uncorr ≠ c.clean → readByte m (a + BitVec.ofNat 32 j) = c.uncorr →
        (∀ i, i < n → i ≠ j → readByte m (a + BitVec.ofNat 32 i) = c.clean) →
          aggregate c m n a 0 0 = (1, 0) ∧ ∀ strength, reportable 1 0 strength = true

/-- `BSWP` (43_eccagg_swap.md R190, R191): the three bytes, by the pseudocode's formulas on whole numbers, the later store
winning where addresses coincide (R193 (c)); every other byte keeps its value, and no register but `ERR` changes. -/
def Obligations.BswpSwapsMarkByte : Prop :=
  ∀ s : State,
    let b := s.geom.bmBitOff.toNat
    let pa := s.ext.payloadAddr + s.geom.bmByteOff
    let qa := pa + 1
    let aa := s.ext.auxAddr
    let p0 := (readByte s.mem pa).toNat
    let p1 := (readByte s.mem qa).toNat
    let a0 := (readByte s.mem aa).toNat
    Ready s → s.status.geomValid = true → s.status.bmValid = true → s.mem.wf = true → b < 8 →
      ∃ m, exec .bswp s = .next { s with mem := m, err := { op := 0x08, code := 0x00 } } ∧
        ∀ x : Word, readByte m x =
          if x = qa then BitVec.ofNat 8 ((p1 &&& ((0xFF <<< b) &&& 0xFF)) ||| (a0 >>> (8 - b)))
          else if x = pa then BitVec.ofNat 8 ((p0 &&& ((1 <<< b) - 1)) ||| ((a0 <<< b) &&& 0xFF))
          else if x = aa then BitVec.ofNat 8 (((p0 >>> b) ||| (p1 <<< (8 - b))) &&& 0xFF)
          else readByte s.mem x

/-- `BSWP` twice restores bus space, whatever the bytes and for every bit offset 0 to 7, when the three addresses differ
(43_eccagg_swap.md R192). -/
def Obligations.BswpTwiceRestores : Prop :=
  ∀ s : State,
    Ready s → s.status.geomValid = true → s.status.bmValid = true → s.mem.wf = true → s.geom.bmBitOff.toNat < 8 →
      s.ext.auxAddr ≠ s.ext.payloadAddr + s.geom.bmByteOff →
      s.ext.auxAddr ≠ s.ext.payloadAddr + s.geom.bmByteOff + 1 →
        ∃ t, exec .bswp s = .next t ∧ exec .bswp t = .next { s with err := { op := 0x08, code := 0x00 } }

/-- `EAGG` without a geometry and `BSWP` without a geometry or without block-mark fields raise `IllegalSequence` and do nothing
else (43_eccagg_swap.md R185, R190). -/
def Obligations.ExtensionPreconditions : Prop :=
  ∀ s : State, Ready s →
    (s.status.geomValid = false → exec .eagg s = .next { s with err := { op := 0x07, code := 0x81 } }) ∧
      (s.status.geomValid = false ∨ s.status.bmValid = false →
        exec .bswp s = .next { s with err := { op := 0x08, code := 0x81 } })

/-! ## System -/

/-- `CLRF` outside a wait, in the abort state or not: `ABORT` and both fields of `ERR` become 0, everything else keeps its
value (44_system.md R200). -/
def Obligations.ClrfLeavesAbort : Prop :=
  ∀ s : State, waiting s.status = false →
    exec .clrf s =
      .next { s with status := { s.status with abort := false }, err := { op := 0x00, code := 0x00 } }

/-- With no input left a step changes nothing (the model's choice, Log 1; 70_reset_and_hazards.md R252: the block is idle until
the host writes `CMD`). -/
def Obligations.NoInputNoChange : Prop :=
  ∀ s : State, s.inputs = [] → step s = .next s

/-- A store of another bus master changes its byte and nothing else (the model's choice, Log 14; 20_memory.md R65: a read
returns the last value written by any agent). -/
def Obligations.BusStoreChangesOneByte : Prop :=
  ∀ (s : State) (a : Word) (v : Byte) (rest : List Action),
    s.mem.wf = true → s.inputs = .busStore a v :: rest →
      ∃ m, step s = .next { s with inputs := rest, mem := m } ∧
        ∀ b : Word, readByte m b = if b = a then v else readByte s.mem b

/-! ## Rules about every step -/

/-- The reset state meets the invariants of 10_state.md R40. -/
def Obligations.ResetMeetsInvariants : Prop := Inv State.reset

/-- Every step keeps the invariants of 10_state.md R40, whatever host and environment do. -/
def Obligations.StepKeepsInvariants : Prop :=
  ∀ s t : State, Inv s → step s = .next t → Inv t

/-- Result registers change only by the operations that write them, and by reset: `G_*` by `GEOM` and `GINV`, `H_*` by `TSYN`,
`D_COUNT`, `D_EFF_*` by `DBRD` and `DBWR`, `A_*` by `EAGG` (10_state.md R29, R32, R34, R36). -/
def Obligations.ResultRegistersHaveOneWriter : Prop :=
  ∀ s t : State, step s = .next t → s.inputs.head? ≠ some .reset →
    (t.geom ≠ s.geom →
        s.inputs.head? = some (commandInput 0x01) ∨ s.inputs.head? = some (commandInput 0x02)) ∧
      (t.timing ≠ s.timing → s.inputs.head? = some (commandInput 0x03)) ∧
      (t.chain ≠ s.chain →
        s.inputs.head? = some (commandInput 0x04) ∨ s.inputs.head? = some (commandInput 0x05)) ∧
      (t.agg ≠ s.agg → s.inputs.head? = some (commandInput 0x07))

/-- Bus space changes only by `DBRD`, `DBWR`, `BSWP` and by the stores of other masters (20_memory.md R61, 70_reset_and_hazards.md
R250). -/
def Obligations.BusSpaceHasFewWriters : Prop :=
  ∀ s t : State, step s = .next t → t.mem ≠ s.mem →
    s.inputs.head? = some (commandInput 0x04) ∨ s.inputs.head? = some (commandInput 0x05) ∨
      s.inputs.head? = some (commandInput 0x08) ∨ ∃ a v, s.inputs.head? = some (.busStore a v)

/-- The abort state is entered only by `GEOM` and left only by `CLRF` and by reset (60_exceptions.md R216, R217). -/
def Obligations.AbortEnteredByGeomLeftByClrf : Prop :=
  ∀ s t : State, step s = .next t →
    (s.status.abort = false → t.status.abort = true → s.inputs.head? = some (commandInput 0x01)) ∧
      (s.status.abort = true → t.status.abort = false →
        s.inputs.head? = some (commandInput 0x09) ∨ s.inputs.head? = some .reset)

/-- A wait is entered only by `PWAIT` or `PWAIT.E` and left only by an event or by reset (42_pipeline.md R162,
70_reset_and_hazards.md R250). -/
def Obligations.WaitEnteredByPwaitLeftByEvents : Prop :=
  ∀ s t : State, step s = .next t →
    (s.status.waitst = .idle → t.status.waitst ≠ .idle →
        s.inputs.head? = some (commandInput 0x006) ∨ s.inputs.head? = some (commandInput 0x106)) ∧
      (s.status.waitst ≠ .idle → t.status.waitst = .idle →
        (∃ e, s.inputs.head? = some (.event e)) ∨ s.inputs.head? = some .reset)

/-- The latches, in states that meet the invariants, are set only by their events and cleared only by `DBRD`, `DBWR`, the two
forms of `PWAIT`, reset, and, for `ECC_L`, the `dma_done` on which a waiting `PWAIT.E` consumes it (10_state.md R37, 42_pipeline.md
R163). -/
def Obligations.LatchDiscipline : Prop :=
  ∀ s t : State, Inv s → step s = .next t →
    (s.status.dmaL = false → t.status.dmaL = true → s.inputs.head? = some (.event .dmaDone)) ∧
      (s.status.eccL = false → t.status.eccL = true → s.inputs.head? = some (.event .eccDone)) ∧
      (s.status.dmaL = true → t.status.dmaL = false →
        s.inputs.head? = some .reset ∨
          ∃ w, s.inputs.head? = some (commandInput w) ∧ (w = 0x004 ∨ w = 0x005 ∨ w = 0x006 ∨ w = 0x106)) ∧
      (s.status.eccL = true → t.status.eccL = false →
        s.inputs.head? = some .reset ∨
          (s.inputs.head? = some (.event .dmaDone) ∧ s.status.waitst = .waitDma ∧ s.status.waitE = true) ∨
          ∃ w, s.inputs.head? = some (commandInput w) ∧ (w = 0x004 ∨ w = 0x005 ∨ w = 0x106))

/-- The running totals change only by `EAGG`, by host writes to them and by reset (60_exceptions.md R226). -/
def Obligations.TotalsChangeOnlyByEaggAndHost : Prop :=
  ∀ s t : State, step s = .next t → t.sums ≠ s.sums →
    s.inputs.head? = some (commandInput 0x07) ∨ s.inputs.head? = some .reset ∨
      ∃ v, s.inputs.head? = some (regWrite .sFailed v) ∨ s.inputs.head? = some (regWrite .sCorrected v)

/-- No step changes the build (the model's own field, Log 7). -/
def Obligations.BuildNeverChanges : Prop :=
  ∀ s t : State, step s = .next t → t.build = s.build
end

