-- ==== Sys2Proof/Laws/Loops.lean ====
section
/-! SUPPORT. The bounded loop: what it computes, and when its bound is not what ends it. -/

namespace Sys2Proof.Machine

/-- The loop's result is a number of turns from the start, with the guard true before each of them; it stops because the
guard fails or because the bound is reached. -/
theorem repeatWhile_iterate {α : Type} (guard : α → Bool) (turn : α → α) :
    ∀ (fuel : Nat) (x : α),
      ∃ n, n ≤ fuel ∧ repeatWhile guard turn fuel x = turn^[n] x ∧ (∀ m, m < n → guard (turn^[m] x) = true) ∧
        (n < fuel → guard (turn^[n] x) = false)
  | 0, x => ⟨0, le_refl _, rfl, fun m h => absurd h (Nat.not_lt_zero m), fun h => absurd h (Nat.not_lt_zero 0)⟩
  | fuel + 1, x => by
    by_cases hg : guard x = true
    · obtain ⟨n, hn, hr, hall, hstop⟩ := repeatWhile_iterate guard turn fuel (turn x)
      refine ⟨n + 1, by omega, ?_, ?_, ?_⟩
      · simpa [repeatWhile, hg] using hr
      · intro m hm
        cases m with
        | zero => exact hg
        | succ m => simpa using hall m (by omega)
      · intro hlt
        simpa using hstop (by omega)
    · have hg' : guard x = false := by simpa using hg
      refine ⟨0, Nat.zero_le _, ?_, fun m h => absurd h (Nat.not_lt_zero m), fun _ => hg'⟩
      simp [repeatWhile, hg']

/-- An invariant of the turns holds of the loop's result. -/
theorem repeatWhile_invariant {α : Type} {P : α → Prop} {guard : α → Bool} {turn : α → α}
    (hturn : ∀ x, P x → guard x = true → P (turn x)) : ∀ (fuel : Nat) (x : α), P x → P (repeatWhile guard turn fuel x)
  | 0, _, h => h
  | fuel + 1, x, h => by
    unfold repeatWhile
    split
    · rename_i hg
      exact repeatWhile_invariant hturn fuel (turn x) (hturn x h hg)
    · exact h

/-- With a measure that every turn lowers and that the bound covers, the loop stops because its guard fails. -/
theorem repeatWhile_exit {α : Type} {P : α → Prop} {guard : α → Bool} {turn : α → α} {size : α → Nat}
    (hturn : ∀ x, P x → guard x = true → P (turn x) ∧ size (turn x) < size x) :
    ∀ (fuel : Nat) (x : α), P x → size x ≤ fuel → guard (repeatWhile guard turn fuel x) = false
  | 0, x, hp, hs => by
    by_contra hg
    rw [Bool.not_eq_false] at hg
    have := (hturn x hp hg).2
    omega
  | fuel + 1, x, hp, hs => by
    by_cases hg : guard x = true
    · obtain ⟨hp', hlt⟩ := hturn x hp hg
      simpa [repeatWhile, hg] using repeatWhile_exit hturn fuel (turn x) hp' (by omega)
    · have hg' : guard x = false := by simpa using hg
      simp [repeatWhile, hg']

end Sys2Proof.Machine
end

