-- ==== Sys2Proof/Laws/Memory.lean ====
section
/-! SUPPORT. Bus space: its canonical form is kept by every operation, a read after a write gives what was written, and
equal contents are equal data. -/

namespace Sys2Proof.Machine

/-! ## Lists of cells -/

theorem cellsWf_cons (lo k : Nat) (v : Byte) (cs : List Host.Cell) :
    cellsWf lo ((k, v) :: cs) = true ↔ lo ≤ k ∧ k < 2 ^ 32 ∧ v ≠ unlistedByte ∧ cellsWf (k + 1) cs = true := by
  simp [cellsWf, and_assoc]

theorem cellsWf_of_le {lo lo' : Nat} (h : lo' ≤ lo) : ∀ {cs : List Host.Cell}, cellsWf lo cs = true → cellsWf lo' cs = true
  | [], _ => rfl
  | (k, v) :: cs, hw => by
    rw [cellsWf_cons] at hw ⊢
    exact ⟨by omega, hw.2.1, hw.2.2.1, hw.2.2.2⟩

theorem lookupCell_of_lt {b : Nat} :
    ∀ {cs : List Host.Cell} {lo : Nat}, cellsWf lo cs = true → b < lo → lookupCell cs b = unlistedByte
  | [], _, _, _ => rfl
  | (k, v) :: cs, lo, hw, hb => by
    rw [cellsWf_cons] at hw
    have hk : k ≠ b := by omega
    simp only [lookupCell, hk, if_false]
    exact lookupCell_of_lt hw.2.2.2 (by omega)

theorem storeCell_wf {a : Nat} {v : Byte} (ha : a < 2 ^ 32) :
    ∀ {cs : List Host.Cell} {lo : Nat}, cellsWf lo cs = true → lo ≤ a → cellsWf lo (storeCell a v cs) = true
  | [], lo, _, hl => by
    unfold storeCell
    split
    · rfl
    · rename_i hv
      rw [cellsWf_cons]
      exact ⟨hl, ha, hv, rfl⟩
  | (k, u) :: cs, lo, hw, hl => by
    rw [cellsWf_cons] at hw
    obtain ⟨h1, h2, h3, h4⟩ := hw
    unfold storeCell
    split
    · rename_i hk
      rw [cellsWf_cons]
      exact ⟨h1, h2, h3, storeCell_wf ha h4 (by omega)⟩
    · split
      · rename_i hk
        split
        · exact cellsWf_of_le (by omega) h4
        · rename_i hv
          rw [cellsWf_cons]
          exact ⟨hl, ha, hv, hk ▸ h4⟩
      · split
        · rw [cellsWf_cons]
          exact ⟨h1, h2, h3, h4⟩
        · rename_i hv
          rw [cellsWf_cons, cellsWf_cons]
          exact ⟨hl, ha, hv, by omega, h2, h3, h4⟩

theorem lookupCell_storeCell {a b : Nat} {v : Byte} :
    ∀ {cs : List Host.Cell} {lo : Nat}, cellsWf lo cs = true →
      lookupCell (storeCell a v cs) b = if a = b then v else lookupCell cs b
  | [], _, _ => by
    unfold storeCell
    by_cases hv : v = unlistedByte <;> by_cases hab : a = b <;> simp [hv, hab, lookupCell]
  | (k, u) :: cs, lo, hw => by
    rw [cellsWf_cons] at hw
    obtain ⟨h1, h2, h3, h4⟩ := hw
    have ih := lookupCell_storeCell (a := a) (b := b) (v := v) h4
    by_cases hlt : k < a
    · have hb : k = b → ¬ a = b := by omega
      simp only [storeCell, hlt, if_true, lookupCell, ih]
      by_cases hkb : k = b <;> simp [hkb, hb]
    · by_cases hka : k = a
      · subst hka
        by_cases hv : v = unlistedByte
        · simp only [storeCell, lt_irrefl, if_false, if_true, hv, lookupCell]
          by_cases hab : k = b
          · simp only [hab, if_true]
            exact lookupCell_of_lt h4 (by omega)
          · simp [hab]
        · simp only [storeCell, lt_irrefl, if_false, if_true, hv, lookupCell]
          by_cases hab : k = b <;> simp [hab]
      · by_cases hv : v = unlistedByte
        · simp only [storeCell, hlt, hka, if_false, hv, if_true, lookupCell]
          by_cases hab : a = b
          · have hkb : ¬ k = b := by omega
            simp only [hkb, hab, if_false, if_true]
            exact lookupCell_of_lt h4 (by omega)
          · simp [hab]
        · simp only [storeCell, hlt, hka, if_false, hv, lookupCell]

theorem cells_ext :
    ∀ {cs ds : List Host.Cell} {lo : Nat}, cellsWf lo cs = true → cellsWf lo ds = true →
      (∀ a, a < 2 ^ 32 → lookupCell cs a = lookupCell ds a) → cs = ds
  | [], [], _, _, _, _ => rfl
  | [], (k, v) :: ds, lo, _, hd, h => by
    rw [cellsWf_cons] at hd
    have := h k hd.2.1
    simp only [lookupCell, if_true] at this
    exact absurd this.symm hd.2.2.1
  | (k, v) :: cs, [], lo, hc, _, h => by
    rw [cellsWf_cons] at hc
    have := h k hc.2.1
    simp only [lookupCell, if_true] at this
    exact absurd this hc.2.2.1
  | (k, v) :: cs, (l, w) :: ds, lo, hc, hd, h => by
    rw [cellsWf_cons] at hc hd
    obtain ⟨c1, c2, c3, c4⟩ := hc
    obtain ⟨d1, d2, d3, d4⟩ := hd
    have hkl : k = l := by
      rcases lt_trichotomy k l with hlt | heq | hgt
      · have := h k c2
        simp only [lookupCell, if_true, show ¬ l = k by omega, if_false] at this
        rw [lookupCell_of_lt d4 (by omega)] at this
        exact absurd this c3
      · exact heq
      · have := h l d2
        simp only [lookupCell, if_true, show ¬ k = l by omega, if_false] at this
        rw [lookupCell_of_lt c4 (by omega)] at this
        exact absurd this.symm d3
    subst hkl
    have hv : v = w := by
      have := h k c2
      simpa [lookupCell] using this
    subst hv
    have : cs = ds := cells_ext c4 d4 (fun a ha => by
      rcases Nat.lt_or_ge a (k + 1) with hlt | hge
      · rw [lookupCell_of_lt c4 hlt, lookupCell_of_lt d4 hlt]
      · have := h a ha
        simpa [lookupCell, show ¬ k = a by omega] using this)
    rw [this]

/-! ## Bytes -/

theorem Memory.wf_writeByte {m : Memory} (a : Word) (v : Byte) (h : m.wf = true) : (writeByte m a v).wf = true :=
  storeCell_wf a.isLt h (Nat.zero_le _)

theorem readByte_writeByte {m : Memory} (a b : Word) (v : Byte) (h : m.wf = true) :
    readByte (writeByte m a v) b = if a = b then v else readByte m b := by
  unfold readByte writeByte
  rw [lookupCell_storeCell h]
  simp [BitVec.toNat_inj]

/-- Equal contents are equal data. -/
theorem Memory.eq_of_readByte {m n : Memory} (hm : m.wf = true) (hn : n.wf = true)
    (h : ∀ a, readByte m a = readByte n a) : m = n := by
  cases m with
  | mk cs =>
    cases n with
    | mk ds =>
      congr 1
      refine cells_ext hm hn (fun a ha => ?_)
      have := h (BitVec.ofNat 32 a)
      have hmod : a % 4294967296 = a := Nat.mod_eq_of_lt ha
      simpa [readByte, hmod] using this

/-! ## Words -/

theorem Memory.wf_writeWord {m : Memory} (a v : Word) (h : m.wf = true) : (writeWord m a v).wf = true := by
  unfold writeWord
  exact Memory.wf_writeByte _ _ (Memory.wf_writeByte _ _ (Memory.wf_writeByte _ _ (Memory.wf_writeByte _ _ h)))

theorem Memory.wf_writeWords :
    ∀ (vs : List Word) {m : Memory} (a : Word), m.wf = true → (writeWords m a vs).wf = true
  | [], _, _, h => h
  | v :: vs, m, a, h => by
    rw [writeWords]
    exact Memory.wf_writeWords vs (a + 4) (Memory.wf_writeWord a v h)

/-- What a byte reads as after a word is stored: byte `b - a` of the word inside, unchanged outside. -/
theorem readByte_writeWord {m : Memory} (a b v : Word) (h : m.wf = true) :
    readByte (writeWord m a v) b = if (b - a).toNat < 4 then wordByte v (b - a).toNat else readByte m b := by
  have h1 := Memory.wf_writeByte a (wordByte v 0) h
  have h2 := Memory.wf_writeByte (a + 1) (wordByte v 1) h1
  have h3 := Memory.wf_writeByte (a + 2) (wordByte v 2) h2
  unfold writeWord
  rw [readByte_writeByte _ _ _ h3, readByte_writeByte _ _ _ h2, readByte_writeByte _ _ _ h1, readByte_writeByte _ _ _ h]
  have key : ∀ i : Nat, i < 4 → (a + BitVec.ofNat 32 i = b ↔ (b - a).toNat = i) := by
    intro i hi
    constructor
    · rintro rfl
      rw [show a + BitVec.ofNat 32 i - a = BitVec.ofNat 32 i by rw [BitVec.add_comm, BitVec.add_sub_cancel]]
      simp; omega
    · intro hb
      have : b - a = BitVec.ofNat 32 i := by
        apply BitVec.eq_of_toNat_eq
        simp [hb]
        omega
      rw [← this, BitVec.add_comm, BitVec.sub_add_cancel]
  have k0 : a = b ↔ (b - a).toNat = 0 := by simpa using key 0 (by omega)
  have k1 : a + 1 = b ↔ (b - a).toNat = 1 := key 1 (by omega)
  have k2 : a + 2 = b ↔ (b - a).toNat = 2 := key 2 (by omega)
  have k3 : a + 3 = b ↔ (b - a).toNat = 3 := key 3 (by omega)
  simp only [k0, k1, k2, k3]
  generalize (b - a).toNat = d
  rcases d with _ | _ | _ | _ | d <;> simp

/-- What a byte reads as after words are stored one after the other, not around the whole of bus space. -/
theorem readByte_writeWords :
    ∀ (vs : List Word) {m : Memory} (a b : Word), m.wf = true → 4 * vs.length ≤ 2 ^ 32 →
      readByte (writeWords m a vs) b =
        if (b - a).toNat < 4 * vs.length then wordByte (vs.getD ((b - a).toNat / 4) 0) ((b - a).toNat % 4)
        else readByte m b
  | [], m, a, b, _, _ => by simp [writeWords]
  | v :: vs, m, a, b, h, hl => by
    simp only [List.length_cons] at hl
    rw [writeWords, readByte_writeWords vs (a + 4) b (Memory.wf_writeWord a v h) (by omega), readByte_writeWord a b v h]
    have hsub : (b - (a + 4)).toNat = if (b - a).toNat < 4 then (b - a).toNat + 2 ^ 32 - 4 else (b - a).toNat - 4 := by
      rw [show b - (a + 4) = b - a - 4 by ring]
      generalize b - a = x
      have := x.isLt
      rw [BitVec.toNat_sub]
      split <;> simp <;> omega
    rw [hsub]
    have := (b - a).isLt
    generalize (b - a).toNat = d at *
    by_cases hd : d < 4
    · have h1 : ¬ d + 2 ^ 32 - 4 < 4 * vs.length := by omega
      have h2 : d < 4 * (v :: vs).length := by simp only [List.length_cons]; omega
      have h3 : d / 4 = 0 := by omega
      have h4 : d % 4 = d := by omega
      simp only [hd, if_true, h1, if_false, h2, h3, h4, List.getD_cons_zero]
    · simp only [hd, if_false, List.length_cons]
      have h3 : d / 4 = (d - 4) / 4 + 1 := by omega
      have h4 : d % 4 = (d - 4) % 4 := by omega
      by_cases hl2 : d - 4 < 4 * vs.length
      · have h2 : d < 4 * (vs.length + 1) := by omega
        simp only [hl2, if_true, h2, h3, h4, List.getD_cons_succ]
      · have h2 : ¬ d < 4 * (vs.length + 1) := by omega
        simp only [hl2, if_false, h2]

/-! ## The operations that write bus space -/

theorem Memory.wf_swapMark {m : Memory} (b : Nat) (pa aa : Word) (h : m.wf = true) : (swapMark m b pa aa).wf = true := by
  unfold swapMark
  exact Memory.wf_writeByte _ _ (Memory.wf_writeByte _ _ (Memory.wf_writeByte _ _ h))

/-- What a byte reads as after the swap: the three stores in their order, the last one to an address winning. -/
theorem readByte_swapMark {m : Memory} (b : Nat) (pa aa x : Word) (h : m.wf = true) :
    readByte (swapMark m b pa aa) x =
      if pa + 1 = x then highByteSwapped b (readByte m (pa + 1)) (readByte m aa)
      else if pa = x then lowByteSwapped b (readByte m pa) (readByte m aa)
      else if aa = x then straddling b (readByte m pa) (readByte m (pa + 1))
      else readByte m x := by
  unfold swapMark
  have h1 := Memory.wf_writeByte aa (straddling b (readByte m pa) (readByte m (pa + 1))) h
  have h2 := Memory.wf_writeByte pa (lowByteSwapped b (readByte m pa) (readByte m aa)) h1
  rw [readByte_writeByte _ _ _ h2, readByte_writeByte _ _ _ h1, readByte_writeByte _ _ _ h]

/-- Bus space with nothing listed is in canonical form. -/
theorem State.reset_mem_wf : State.reset.mem.wf = true := rfl

end Sys2Proof.Machine
end

