-- ==== Sys2Proof/Laws/State.lean ====
section
/-! SUPPORT. One lemma for each field of `State` under each named update, true by `rfl`, so that no proof unfolds a record
update. -/

namespace Sys2Proof.Machine

/-! ### setErr -/

@[simp] theorem setErr_status (op code : Byte) (s : State) : (setErr op code s).status = s.status := rfl
@[simp] theorem setErr_err (op code : Byte) (s : State) : (setErr op code s).err = { op := op, code := code } := rfl
@[simp] theorem setErr_cfg (op code : Byte) (s : State) : (setErr op code s).cfg = s.cfg := rfl
@[simp] theorem setErr_pageSize (op code : Byte) (s : State) : (setErr op code s).pageSize = s.pageSize := rfl
@[simp] theorem setErr_oobSize (op code : Byte) (s : State) : (setErr op code s).oobSize = s.oobSize := rfl
@[simp] theorem setErr_geom (op code : Byte) (s : State) : (setErr op code s).geom = s.geom := rfl
@[simp] theorem setErr_target (op code : Byte) (s : State) : (setErr op code s).target = s.target := rfl
@[simp] theorem setErr_limits (op code : Byte) (s : State) : (setErr op code s).limits = s.limits := rfl
@[simp] theorem setErr_timing (op code : Byte) (s : State) : (setErr op code s).timing = s.timing := rfl
@[simp] theorem setErr_dma (op code : Byte) (s : State) : (setErr op code s).dma = s.dma := rfl
@[simp] theorem setErr_chain (op code : Byte) (s : State) : (setErr op code s).chain = s.chain := rfl
@[simp] theorem setErr_ext (op code : Byte) (s : State) : (setErr op code s).ext = s.ext := rfl
@[simp] theorem setErr_agg (op code : Byte) (s : State) : (setErr op code s).agg = s.agg := rfl
@[simp] theorem setErr_sums (op code : Byte) (s : State) : (setErr op code s).sums = s.sums := rfl
@[simp] theorem setErr_table (op code : Byte) (s : State) : (setErr op code s).table = s.table := rfl
@[simp] theorem setErr_mem (op code : Byte) (s : State) : (setErr op code s).mem = s.mem := rfl
@[simp] theorem setErr_build (op code : Byte) (s : State) : (setErr op code s).build = s.build := rfl
@[simp] theorem setErr_inputs (op code : Byte) (s : State) : (setErr op code s).inputs = s.inputs := rfl
@[simp] theorem setErr_reply (op code : Byte) (s : State) : (setErr op code s).reply = s.reply := rfl

/-! ### succeed -/

@[simp] theorem succeed_status (op : Byte) (s : State) : (succeed op s).status = s.status := rfl
@[simp] theorem succeed_err (op : Byte) (s : State) : (succeed op s).err = { op := op, code := 0 } := rfl
@[simp] theorem succeed_cfg (op : Byte) (s : State) : (succeed op s).cfg = s.cfg := rfl
@[simp] theorem succeed_pageSize (op : Byte) (s : State) : (succeed op s).pageSize = s.pageSize := rfl
@[simp] theorem succeed_oobSize (op : Byte) (s : State) : (succeed op s).oobSize = s.oobSize := rfl
@[simp] theorem succeed_geom (op : Byte) (s : State) : (succeed op s).geom = s.geom := rfl
@[simp] theorem succeed_target (op : Byte) (s : State) : (succeed op s).target = s.target := rfl
@[simp] theorem succeed_limits (op : Byte) (s : State) : (succeed op s).limits = s.limits := rfl
@[simp] theorem succeed_timing (op : Byte) (s : State) : (succeed op s).timing = s.timing := rfl
@[simp] theorem succeed_dma (op : Byte) (s : State) : (succeed op s).dma = s.dma := rfl
@[simp] theorem succeed_chain (op : Byte) (s : State) : (succeed op s).chain = s.chain := rfl
@[simp] theorem succeed_ext (op : Byte) (s : State) : (succeed op s).ext = s.ext := rfl
@[simp] theorem succeed_agg (op : Byte) (s : State) : (succeed op s).agg = s.agg := rfl
@[simp] theorem succeed_sums (op : Byte) (s : State) : (succeed op s).sums = s.sums := rfl
@[simp] theorem succeed_table (op : Byte) (s : State) : (succeed op s).table = s.table := rfl
@[simp] theorem succeed_mem (op : Byte) (s : State) : (succeed op s).mem = s.mem := rfl
@[simp] theorem succeed_build (op : Byte) (s : State) : (succeed op s).build = s.build := rfl
@[simp] theorem succeed_inputs (op : Byte) (s : State) : (succeed op s).inputs = s.inputs := rfl
@[simp] theorem succeed_reply (op : Byte) (s : State) : (succeed op s).reply = s.reply := rfl

/-! ### endWait -/

@[simp] theorem endWait_status (s : State) :
    (endWait s).status =
      { s.status with waitst := .idle, waitE := false, descValid := false } := rfl
@[simp] theorem endWait_err (s : State) : (endWait s).err = s.err := rfl
@[simp] theorem endWait_cfg (s : State) : (endWait s).cfg = s.cfg := rfl
@[simp] theorem endWait_pageSize (s : State) : (endWait s).pageSize = s.pageSize := rfl
@[simp] theorem endWait_oobSize (s : State) : (endWait s).oobSize = s.oobSize := rfl
@[simp] theorem endWait_geom (s : State) : (endWait s).geom = s.geom := rfl
@[simp] theorem endWait_target (s : State) : (endWait s).target = s.target := rfl
@[simp] theorem endWait_limits (s : State) : (endWait s).limits = s.limits := rfl
@[simp] theorem endWait_timing (s : State) : (endWait s).timing = s.timing := rfl
@[simp] theorem endWait_dma (s : State) : (endWait s).dma = s.dma := rfl
@[simp] theorem endWait_chain (s : State) : (endWait s).chain = s.chain := rfl
@[simp] theorem endWait_ext (s : State) : (endWait s).ext = s.ext := rfl
@[simp] theorem endWait_agg (s : State) : (endWait s).agg = s.agg := rfl
@[simp] theorem endWait_sums (s : State) : (endWait s).sums = s.sums := rfl
@[simp] theorem endWait_table (s : State) : (endWait s).table = s.table := rfl
@[simp] theorem endWait_mem (s : State) : (endWait s).mem = s.mem := rfl
@[simp] theorem endWait_build (s : State) : (endWait s).build = s.build := rfl
@[simp] theorem endWait_inputs (s : State) : (endWait s).inputs = s.inputs := rfl
@[simp] theorem endWait_reply (s : State) : (endWait s).reply = s.reply := rfl

/-! ### enterAbort -/

@[simp] theorem enterAbort_status (s : State) : (enterAbort s).status = { s.status with abort := true } := rfl
@[simp] theorem enterAbort_err (s : State) : (enterAbort s).err = s.err := rfl
@[simp] theorem enterAbort_cfg (s : State) : (enterAbort s).cfg = s.cfg := rfl
@[simp] theorem enterAbort_pageSize (s : State) : (enterAbort s).pageSize = s.pageSize := rfl
@[simp] theorem enterAbort_oobSize (s : State) : (enterAbort s).oobSize = s.oobSize := rfl
@[simp] theorem enterAbort_geom (s : State) : (enterAbort s).geom = s.geom := rfl
@[simp] theorem enterAbort_target (s : State) : (enterAbort s).target = s.target := rfl
@[simp] theorem enterAbort_limits (s : State) : (enterAbort s).limits = s.limits := rfl
@[simp] theorem enterAbort_timing (s : State) : (enterAbort s).timing = s.timing := rfl
@[simp] theorem enterAbort_dma (s : State) : (enterAbort s).dma = s.dma := rfl
@[simp] theorem enterAbort_chain (s : State) : (enterAbort s).chain = s.chain := rfl
@[simp] theorem enterAbort_ext (s : State) : (enterAbort s).ext = s.ext := rfl
@[simp] theorem enterAbort_agg (s : State) : (enterAbort s).agg = s.agg := rfl
@[simp] theorem enterAbort_sums (s : State) : (enterAbort s).sums = s.sums := rfl
@[simp] theorem enterAbort_table (s : State) : (enterAbort s).table = s.table := rfl
@[simp] theorem enterAbort_mem (s : State) : (enterAbort s).mem = s.mem := rfl
@[simp] theorem enterAbort_build (s : State) : (enterAbort s).build = s.build := rfl
@[simp] theorem enterAbort_inputs (s : State) : (enterAbort s).inputs = s.inputs := rfl
@[simp] theorem enterAbort_reply (s : State) : (enterAbort s).reply = s.reply := rfl

/-! ### leaveAbort -/

@[simp] theorem leaveAbort_status (s : State) : (leaveAbort s).status = { s.status with abort := false } := rfl
@[simp] theorem leaveAbort_err (s : State) : (leaveAbort s).err = { op := 0, code := 0 } := rfl
@[simp] theorem leaveAbort_cfg (s : State) : (leaveAbort s).cfg = s.cfg := rfl
@[simp] theorem leaveAbort_pageSize (s : State) : (leaveAbort s).pageSize = s.pageSize := rfl
@[simp] theorem leaveAbort_oobSize (s : State) : (leaveAbort s).oobSize = s.oobSize := rfl
@[simp] theorem leaveAbort_geom (s : State) : (leaveAbort s).geom = s.geom := rfl
@[simp] theorem leaveAbort_target (s : State) : (leaveAbort s).target = s.target := rfl
@[simp] theorem leaveAbort_limits (s : State) : (leaveAbort s).limits = s.limits := rfl
@[simp] theorem leaveAbort_timing (s : State) : (leaveAbort s).timing = s.timing := rfl
@[simp] theorem leaveAbort_dma (s : State) : (leaveAbort s).dma = s.dma := rfl
@[simp] theorem leaveAbort_chain (s : State) : (leaveAbort s).chain = s.chain := rfl
@[simp] theorem leaveAbort_ext (s : State) : (leaveAbort s).ext = s.ext := rfl
@[simp] theorem leaveAbort_agg (s : State) : (leaveAbort s).agg = s.agg := rfl
@[simp] theorem leaveAbort_sums (s : State) : (leaveAbort s).sums = s.sums := rfl
@[simp] theorem leaveAbort_table (s : State) : (leaveAbort s).table = s.table := rfl
@[simp] theorem leaveAbort_mem (s : State) : (leaveAbort s).mem = s.mem := rfl
@[simp] theorem leaveAbort_build (s : State) : (leaveAbort s).build = s.build := rfl
@[simp] theorem leaveAbort_inputs (s : State) : (leaveAbort s).inputs = s.inputs := rfl
@[simp] theorem leaveAbort_reply (s : State) : (leaveAbort s).reply = s.reply := rfl

/-! ### refuseAccess -/

@[simp] theorem refuseAccess_status (s : State) : (refuseAccess s).status = s.status := rfl
@[simp] theorem refuseAccess_err (s : State) : (refuseAccess s).err = s.err := rfl
@[simp] theorem refuseAccess_cfg (s : State) : (refuseAccess s).cfg = s.cfg := rfl
@[simp] theorem refuseAccess_pageSize (s : State) : (refuseAccess s).pageSize = s.pageSize := rfl
@[simp] theorem refuseAccess_oobSize (s : State) : (refuseAccess s).oobSize = s.oobSize := rfl
@[simp] theorem refuseAccess_geom (s : State) : (refuseAccess s).geom = s.geom := rfl
@[simp] theorem refuseAccess_target (s : State) : (refuseAccess s).target = s.target := rfl
@[simp] theorem refuseAccess_limits (s : State) : (refuseAccess s).limits = s.limits := rfl
@[simp] theorem refuseAccess_timing (s : State) : (refuseAccess s).timing = s.timing := rfl
@[simp] theorem refuseAccess_dma (s : State) : (refuseAccess s).dma = s.dma := rfl
@[simp] theorem refuseAccess_chain (s : State) : (refuseAccess s).chain = s.chain := rfl
@[simp] theorem refuseAccess_ext (s : State) : (refuseAccess s).ext = s.ext := rfl
@[simp] theorem refuseAccess_agg (s : State) : (refuseAccess s).agg = s.agg := rfl
@[simp] theorem refuseAccess_sums (s : State) : (refuseAccess s).sums = s.sums := rfl
@[simp] theorem refuseAccess_table (s : State) : (refuseAccess s).table = s.table := rfl
@[simp] theorem refuseAccess_mem (s : State) : (refuseAccess s).mem = s.mem := rfl
@[simp] theorem refuseAccess_build (s : State) : (refuseAccess s).build = s.build := rfl
@[simp] theorem refuseAccess_inputs (s : State) : (refuseAccess s).inputs = s.inputs := rfl
@[simp] theorem refuseAccess_reply (s : State) : (refuseAccess s).reply = .busError := rfl

/-! ### acceptWrite -/

@[simp] theorem acceptWrite_status (s : State) : (acceptWrite s).status = s.status := rfl
@[simp] theorem acceptWrite_err (s : State) : (acceptWrite s).err = s.err := rfl
@[simp] theorem acceptWrite_cfg (s : State) : (acceptWrite s).cfg = s.cfg := rfl
@[simp] theorem acceptWrite_pageSize (s : State) : (acceptWrite s).pageSize = s.pageSize := rfl
@[simp] theorem acceptWrite_oobSize (s : State) : (acceptWrite s).oobSize = s.oobSize := rfl
@[simp] theorem acceptWrite_geom (s : State) : (acceptWrite s).geom = s.geom := rfl
@[simp] theorem acceptWrite_target (s : State) : (acceptWrite s).target = s.target := rfl
@[simp] theorem acceptWrite_limits (s : State) : (acceptWrite s).limits = s.limits := rfl
@[simp] theorem acceptWrite_timing (s : State) : (acceptWrite s).timing = s.timing := rfl
@[simp] theorem acceptWrite_dma (s : State) : (acceptWrite s).dma = s.dma := rfl
@[simp] theorem acceptWrite_chain (s : State) : (acceptWrite s).chain = s.chain := rfl
@[simp] theorem acceptWrite_ext (s : State) : (acceptWrite s).ext = s.ext := rfl
@[simp] theorem acceptWrite_agg (s : State) : (acceptWrite s).agg = s.agg := rfl
@[simp] theorem acceptWrite_sums (s : State) : (acceptWrite s).sums = s.sums := rfl
@[simp] theorem acceptWrite_table (s : State) : (acceptWrite s).table = s.table := rfl
@[simp] theorem acceptWrite_mem (s : State) : (acceptWrite s).mem = s.mem := rfl
@[simp] theorem acceptWrite_build (s : State) : (acceptWrite s).build = s.build := rfl
@[simp] theorem acceptWrite_inputs (s : State) : (acceptWrite s).inputs = s.inputs := rfl
@[simp] theorem acceptWrite_reply (s : State) : (acceptWrite s).reply = .done := rfl

/-! ### finishWait -/

@[simp] theorem finishWait_status (s : State) :
    (finishWait s).status =
      { s.status with waitst := .idle, waitE := false, descValid := false } := rfl
@[simp] theorem finishWait_err (s : State) : (finishWait s).err = { op := 0x06, code := 0 } := rfl
@[simp] theorem finishWait_cfg (s : State) : (finishWait s).cfg = s.cfg := rfl
@[simp] theorem finishWait_pageSize (s : State) : (finishWait s).pageSize = s.pageSize := rfl
@[simp] theorem finishWait_oobSize (s : State) : (finishWait s).oobSize = s.oobSize := rfl
@[simp] theorem finishWait_geom (s : State) : (finishWait s).geom = s.geom := rfl
@[simp] theorem finishWait_target (s : State) : (finishWait s).target = s.target := rfl
@[simp] theorem finishWait_limits (s : State) : (finishWait s).limits = s.limits := rfl
@[simp] theorem finishWait_timing (s : State) : (finishWait s).timing = s.timing := rfl
@[simp] theorem finishWait_dma (s : State) : (finishWait s).dma = s.dma := rfl
@[simp] theorem finishWait_chain (s : State) : (finishWait s).chain = s.chain := rfl
@[simp] theorem finishWait_ext (s : State) : (finishWait s).ext = s.ext := rfl
@[simp] theorem finishWait_agg (s : State) : (finishWait s).agg = s.agg := rfl
@[simp] theorem finishWait_sums (s : State) : (finishWait s).sums = s.sums := rfl
@[simp] theorem finishWait_table (s : State) : (finishWait s).table = s.table := rfl
@[simp] theorem finishWait_mem (s : State) : (finishWait s).mem = s.mem := rfl
@[simp] theorem finishWait_build (s : State) : (finishWait s).build = s.build := rfl
@[simp] theorem finishWait_inputs (s : State) : (finishWait s).inputs = s.inputs := rfl
@[simp] theorem finishWait_reply (s : State) : (finishWait s).reply = s.reply := rfl

/-! ### enterWait -/

@[simp] theorem enterWait_status (e : Bool) (s : State) :
    (enterWait e s).status =
      { s.status with waitE := e, waitst := .waitDma } := rfl
@[simp] theorem enterWait_err (e : Bool) (s : State) : (enterWait e s).err = s.err := rfl
@[simp] theorem enterWait_cfg (e : Bool) (s : State) : (enterWait e s).cfg = s.cfg := rfl
@[simp] theorem enterWait_pageSize (e : Bool) (s : State) : (enterWait e s).pageSize = s.pageSize := rfl
@[simp] theorem enterWait_oobSize (e : Bool) (s : State) : (enterWait e s).oobSize = s.oobSize := rfl
@[simp] theorem enterWait_geom (e : Bool) (s : State) : (enterWait e s).geom = s.geom := rfl
@[simp] theorem enterWait_target (e : Bool) (s : State) : (enterWait e s).target = s.target := rfl
@[simp] theorem enterWait_limits (e : Bool) (s : State) : (enterWait e s).limits = s.limits := rfl
@[simp] theorem enterWait_timing (e : Bool) (s : State) : (enterWait e s).timing = s.timing := rfl
@[simp] theorem enterWait_dma (e : Bool) (s : State) : (enterWait e s).dma = s.dma := rfl
@[simp] theorem enterWait_chain (e : Bool) (s : State) : (enterWait e s).chain = s.chain := rfl
@[simp] theorem enterWait_ext (e : Bool) (s : State) : (enterWait e s).ext = s.ext := rfl
@[simp] theorem enterWait_agg (e : Bool) (s : State) : (enterWait e s).agg = s.agg := rfl
@[simp] theorem enterWait_sums (e : Bool) (s : State) : (enterWait e s).sums = s.sums := rfl
@[simp] theorem enterWait_table (e : Bool) (s : State) : (enterWait e s).table = s.table := rfl
@[simp] theorem enterWait_mem (e : Bool) (s : State) : (enterWait e s).mem = s.mem := rfl
@[simp] theorem enterWait_build (e : Bool) (s : State) : (enterWait e s).build = s.build := rfl
@[simp] theorem enterWait_inputs (e : Bool) (s : State) : (enterWait e s).inputs = s.inputs := rfl
@[simp] theorem enterWait_reply (e : Bool) (s : State) : (enterWait e s).reply = s.reply := rfl

/-! ### latchGeometry -/

@[simp] theorem latchGeometry_status (g : Geometry) (s : State) :
    (latchGeometry g s).status =
      { s.status with geomValid := true, bmValid := s.cfg.swap } := rfl
@[simp] theorem latchGeometry_err (g : Geometry) (s : State) : (latchGeometry g s).err = s.err := rfl
@[simp] theorem latchGeometry_cfg (g : Geometry) (s : State) : (latchGeometry g s).cfg = s.cfg := rfl
@[simp] theorem latchGeometry_pageSize (g : Geometry) (s : State) : (latchGeometry g s).pageSize = s.pageSize := rfl
@[simp] theorem latchGeometry_oobSize (g : Geometry) (s : State) : (latchGeometry g s).oobSize = s.oobSize := rfl
@[simp] theorem latchGeometry_geom (g : Geometry) (s : State) : (latchGeometry g s).geom = g := rfl
@[simp] theorem latchGeometry_target (g : Geometry) (s : State) : (latchGeometry g s).target = s.target := rfl
@[simp] theorem latchGeometry_limits (g : Geometry) (s : State) : (latchGeometry g s).limits = s.limits := rfl
@[simp] theorem latchGeometry_timing (g : Geometry) (s : State) : (latchGeometry g s).timing = s.timing := rfl
@[simp] theorem latchGeometry_dma (g : Geometry) (s : State) : (latchGeometry g s).dma = s.dma := rfl
@[simp] theorem latchGeometry_chain (g : Geometry) (s : State) : (latchGeometry g s).chain = s.chain := rfl
@[simp] theorem latchGeometry_ext (g : Geometry) (s : State) : (latchGeometry g s).ext = s.ext := rfl
@[simp] theorem latchGeometry_agg (g : Geometry) (s : State) : (latchGeometry g s).agg = s.agg := rfl
@[simp] theorem latchGeometry_sums (g : Geometry) (s : State) : (latchGeometry g s).sums = s.sums := rfl
@[simp] theorem latchGeometry_table (g : Geometry) (s : State) : (latchGeometry g s).table = s.table := rfl
@[simp] theorem latchGeometry_mem (g : Geometry) (s : State) : (latchGeometry g s).mem = s.mem := rfl
@[simp] theorem latchGeometry_build (g : Geometry) (s : State) : (latchGeometry g s).build = s.build := rfl
@[simp] theorem latchGeometry_inputs (g : Geometry) (s : State) : (latchGeometry g s).inputs = s.inputs := rfl
@[simp] theorem latchGeometry_reply (g : Geometry) (s : State) : (latchGeometry g s).reply = s.reply := rfl

/-! ### discardGeometry -/

@[simp] theorem discardGeometry_status (s : State) :
    (discardGeometry s).status =
      { s.status with geomValid := false, bmValid := false, descValid := false, aggValid := false, report := false } := rfl
@[simp] theorem discardGeometry_err (s : State) : (discardGeometry s).err = s.err := rfl
@[simp] theorem discardGeometry_cfg (s : State) : (discardGeometry s).cfg = s.cfg := rfl
@[simp] theorem discardGeometry_pageSize (s : State) : (discardGeometry s).pageSize = s.pageSize := rfl
@[simp] theorem discardGeometry_oobSize (s : State) : (discardGeometry s).oobSize = s.oobSize := rfl
@[simp] theorem discardGeometry_geom (s : State) : (discardGeometry s).geom = Geometry.zero := rfl
@[simp] theorem discardGeometry_target (s : State) : (discardGeometry s).target = s.target := rfl
@[simp] theorem discardGeometry_limits (s : State) : (discardGeometry s).limits = s.limits := rfl
@[simp] theorem discardGeometry_timing (s : State) : (discardGeometry s).timing = s.timing := rfl
@[simp] theorem discardGeometry_dma (s : State) : (discardGeometry s).dma = s.dma := rfl
@[simp] theorem discardGeometry_chain (s : State) : (discardGeometry s).chain = s.chain := rfl
@[simp] theorem discardGeometry_ext (s : State) : (discardGeometry s).ext = s.ext := rfl
@[simp] theorem discardGeometry_agg (s : State) : (discardGeometry s).agg = s.agg := rfl
@[simp] theorem discardGeometry_sums (s : State) : (discardGeometry s).sums = s.sums := rfl
@[simp] theorem discardGeometry_table (s : State) : (discardGeometry s).table = s.table := rfl
@[simp] theorem discardGeometry_mem (s : State) : (discardGeometry s).mem = s.mem := rfl
@[simp] theorem discardGeometry_build (s : State) : (discardGeometry s).build = s.build := rfl
@[simp] theorem discardGeometry_inputs (s : State) : (discardGeometry s).inputs = s.inputs := rfl
@[simp] theorem discardGeometry_reply (s : State) : (discardGeometry s).reply = s.reply := rfl

/-! ### latchTiming -/

@[simp] theorem latchTiming_status (s : State) :
    (latchTiming s).status =
      { s.status with timingValid := true, twarn := (pathOf s.target s.limits).warn } := rfl
@[simp] theorem latchTiming_err (s : State) : (latchTiming s).err = s.err := rfl
@[simp] theorem latchTiming_cfg (s : State) : (latchTiming s).cfg = s.cfg := rfl
@[simp] theorem latchTiming_pageSize (s : State) : (latchTiming s).pageSize = s.pageSize := rfl
@[simp] theorem latchTiming_oobSize (s : State) : (latchTiming s).oobSize = s.oobSize := rfl
@[simp] theorem latchTiming_geom (s : State) : (latchTiming s).geom = s.geom := rfl
@[simp] theorem latchTiming_target (s : State) : (latchTiming s).target = s.target := rfl
@[simp] theorem latchTiming_limits (s : State) : (latchTiming s).limits = s.limits := rfl
@[simp] theorem latchTiming_timing (s : State) : (latchTiming s).timing = timingOf s.target s.limits := rfl
@[simp] theorem latchTiming_dma (s : State) : (latchTiming s).dma = s.dma := rfl
@[simp] theorem latchTiming_chain (s : State) : (latchTiming s).chain = s.chain := rfl
@[simp] theorem latchTiming_ext (s : State) : (latchTiming s).ext = s.ext := rfl
@[simp] theorem latchTiming_agg (s : State) : (latchTiming s).agg = s.agg := rfl
@[simp] theorem latchTiming_sums (s : State) : (latchTiming s).sums = s.sums := rfl
@[simp] theorem latchTiming_table (s : State) : (latchTiming s).table = s.table := rfl
@[simp] theorem latchTiming_mem (s : State) : (latchTiming s).mem = s.mem := rfl
@[simp] theorem latchTiming_build (s : State) : (latchTiming s).build = s.build := rfl
@[simp] theorem latchTiming_inputs (s : State) : (latchTiming s).inputs = s.inputs := rfl
@[simp] theorem latchTiming_reply (s : State) : (latchTiming s).reply = s.reply := rfl

/-! ### latchChain -/

@[simp] theorem latchChain_status (w : Bool) (ds : List Descriptor) (b : Buffers) (s : State) :
    (latchChain w ds b s).status =
      { s.status with descValid := true, descWr := w, bounceP := b.bounceP, bounceA := b.bounceA, dmaL := false, eccL := false } := rfl
@[simp] theorem latchChain_err (w : Bool) (ds : List Descriptor) (b : Buffers) (s : State) :
    (latchChain w ds b s).err =
      s.err := rfl
@[simp] theorem latchChain_cfg (w : Bool) (ds : List Descriptor) (b : Buffers) (s : State) :
    (latchChain w ds b s).cfg =
      s.cfg := rfl
@[simp] theorem latchChain_pageSize (w : Bool) (ds : List Descriptor) (b : Buffers) (s : State) :
    (latchChain w ds b s).pageSize =
      s.pageSize := rfl
@[simp] theorem latchChain_oobSize (w : Bool) (ds : List Descriptor) (b : Buffers) (s : State) :
    (latchChain w ds b s).oobSize =
      s.oobSize := rfl
@[simp] theorem latchChain_geom (w : Bool) (ds : List Descriptor) (b : Buffers) (s : State) :
    (latchChain w ds b s).geom =
      s.geom := rfl
@[simp] theorem latchChain_target (w : Bool) (ds : List Descriptor) (b : Buffers) (s : State) :
    (latchChain w ds b s).target =
      s.target := rfl
@[simp] theorem latchChain_limits (w : Bool) (ds : List Descriptor) (b : Buffers) (s : State) :
    (latchChain w ds b s).limits =
      s.limits := rfl
@[simp] theorem latchChain_timing (w : Bool) (ds : List Descriptor) (b : Buffers) (s : State) :
    (latchChain w ds b s).timing =
      s.timing := rfl
@[simp] theorem latchChain_dma (w : Bool) (ds : List Descriptor) (b : Buffers) (s : State) :
    (latchChain w ds b s).dma =
      s.dma := rfl
@[simp] theorem latchChain_chain (w : Bool) (ds : List Descriptor) (b : Buffers) (s : State) :
    (latchChain w ds b s).chain =
      { count := toWord ds.length, effPayload := b.effPayload, effAux := b.effAux } := rfl
@[simp] theorem latchChain_ext (w : Bool) (ds : List Descriptor) (b : Buffers) (s : State) :
    (latchChain w ds b s).ext =
      s.ext := rfl
@[simp] theorem latchChain_agg (w : Bool) (ds : List Descriptor) (b : Buffers) (s : State) :
    (latchChain w ds b s).agg =
      s.agg := rfl
@[simp] theorem latchChain_sums (w : Bool) (ds : List Descriptor) (b : Buffers) (s : State) :
    (latchChain w ds b s).sums =
      s.sums := rfl
@[simp] theorem latchChain_table (w : Bool) (ds : List Descriptor) (b : Buffers) (s : State) :
    (latchChain w ds b s).table =
      s.table := rfl
@[simp] theorem latchChain_mem (w : Bool) (ds : List Descriptor) (b : Buffers) (s : State) :
    (latchChain w ds b s).mem =
      writeWords s.mem s.dma.chainAddr (chainWords ds) := rfl
@[simp] theorem latchChain_build (w : Bool) (ds : List Descriptor) (b : Buffers) (s : State) :
    (latchChain w ds b s).build =
      s.build := rfl
@[simp] theorem latchChain_inputs (w : Bool) (ds : List Descriptor) (b : Buffers) (s : State) :
    (latchChain w ds b s).inputs =
      s.inputs := rfl
@[simp] theorem latchChain_reply (w : Bool) (ds : List Descriptor) (b : Buffers) (s : State) :
    (latchChain w ds b s).reply =
      s.reply := rfl

/-! ### latchAggregate -/

@[simp] theorem latchAggregate_status (f c : Nat) (s : State) :
    (latchAggregate f c s).status =
      { s.status with aggValid := true, report := reportable f c s.geom.eccStrength.toNat } := rfl
@[simp] theorem latchAggregate_err (f c : Nat) (s : State) : (latchAggregate f c s).err = s.err := rfl
@[simp] theorem latchAggregate_cfg (f c : Nat) (s : State) : (latchAggregate f c s).cfg = s.cfg := rfl
@[simp] theorem latchAggregate_pageSize (f c : Nat) (s : State) : (latchAggregate f c s).pageSize = s.pageSize := rfl
@[simp] theorem latchAggregate_oobSize (f c : Nat) (s : State) : (latchAggregate f c s).oobSize = s.oobSize := rfl
@[simp] theorem latchAggregate_geom (f c : Nat) (s : State) : (latchAggregate f c s).geom = s.geom := rfl
@[simp] theorem latchAggregate_target (f c : Nat) (s : State) : (latchAggregate f c s).target = s.target := rfl
@[simp] theorem latchAggregate_limits (f c : Nat) (s : State) : (latchAggregate f c s).limits = s.limits := rfl
@[simp] theorem latchAggregate_timing (f c : Nat) (s : State) : (latchAggregate f c s).timing = s.timing := rfl
@[simp] theorem latchAggregate_dma (f c : Nat) (s : State) : (latchAggregate f c s).dma = s.dma := rfl
@[simp] theorem latchAggregate_chain (f c : Nat) (s : State) : (latchAggregate f c s).chain = s.chain := rfl
@[simp] theorem latchAggregate_ext (f c : Nat) (s : State) : (latchAggregate f c s).ext = s.ext := rfl
@[simp] theorem latchAggregate_agg (f c : Nat) (s : State) :
    (latchAggregate f c s).agg =
      { failed := toWord f, corrected := toWord c } := rfl
@[simp] theorem latchAggregate_sums (f c : Nat) (s : State) :
    (latchAggregate f c s).sums =
      if reportable f c s.geom.eccStrength.toNat then { failed := toWord (s.sums.failed.toNat + f), corrected := toWord (s.sums.corrected.toNat + c) } else s.sums := rfl
@[simp] theorem latchAggregate_table (f c : Nat) (s : State) : (latchAggregate f c s).table = s.table := rfl
@[simp] theorem latchAggregate_mem (f c : Nat) (s : State) : (latchAggregate f c s).mem = s.mem := rfl
@[simp] theorem latchAggregate_build (f c : Nat) (s : State) : (latchAggregate f c s).build = s.build := rfl
@[simp] theorem latchAggregate_inputs (f c : Nat) (s : State) : (latchAggregate f c s).inputs = s.inputs := rfl
@[simp] theorem latchAggregate_reply (f c : Nat) (s : State) : (latchAggregate f c s).reply = s.reply := rfl

/-! ### setEntry -/

@[simp] theorem setEntry_status (s : State) (i : Fin 8) (e : TableEntry) : (setEntry s i e).status = s.status := rfl
@[simp] theorem setEntry_err (s : State) (i : Fin 8) (e : TableEntry) : (setEntry s i e).err = s.err := rfl
@[simp] theorem setEntry_cfg (s : State) (i : Fin 8) (e : TableEntry) : (setEntry s i e).cfg = s.cfg := rfl
@[simp] theorem setEntry_pageSize (s : State) (i : Fin 8) (e : TableEntry) :
    (setEntry s i e).pageSize =
      s.pageSize := rfl
@[simp] theorem setEntry_oobSize (s : State) (i : Fin 8) (e : TableEntry) :
    (setEntry s i e).oobSize =
      s.oobSize := rfl
@[simp] theorem setEntry_geom (s : State) (i : Fin 8) (e : TableEntry) : (setEntry s i e).geom = s.geom := rfl
@[simp] theorem setEntry_target (s : State) (i : Fin 8) (e : TableEntry) : (setEntry s i e).target = s.target := rfl
@[simp] theorem setEntry_limits (s : State) (i : Fin 8) (e : TableEntry) : (setEntry s i e).limits = s.limits := rfl
@[simp] theorem setEntry_timing (s : State) (i : Fin 8) (e : TableEntry) : (setEntry s i e).timing = s.timing := rfl
@[simp] theorem setEntry_dma (s : State) (i : Fin 8) (e : TableEntry) : (setEntry s i e).dma = s.dma := rfl
@[simp] theorem setEntry_chain (s : State) (i : Fin 8) (e : TableEntry) : (setEntry s i e).chain = s.chain := rfl
@[simp] theorem setEntry_ext (s : State) (i : Fin 8) (e : TableEntry) : (setEntry s i e).ext = s.ext := rfl
@[simp] theorem setEntry_agg (s : State) (i : Fin 8) (e : TableEntry) : (setEntry s i e).agg = s.agg := rfl
@[simp] theorem setEntry_sums (s : State) (i : Fin 8) (e : TableEntry) : (setEntry s i e).sums = s.sums := rfl
@[simp] theorem setEntry_table (s : State) (i : Fin 8) (e : TableEntry) :
    (setEntry s i e).table =
      s.table.set i.val e := rfl
@[simp] theorem setEntry_mem (s : State) (i : Fin 8) (e : TableEntry) : (setEntry s i e).mem = s.mem := rfl
@[simp] theorem setEntry_build (s : State) (i : Fin 8) (e : TableEntry) : (setEntry s i e).build = s.build := rfl
@[simp] theorem setEntry_inputs (s : State) (i : Fin 8) (e : TableEntry) : (setEntry s i e).inputs = s.inputs := rfl
@[simp] theorem setEntry_reply (s : State) (i : Fin 8) (e : TableEntry) : (setEntry s i e).reply = s.reply := rfl

/-! ### Resets keep what is no register -/

@[simp] theorem resetBlock_mem (s : State) : (resetBlock s).mem = s.mem := rfl
@[simp] theorem resetBlock_build (s : State) : (resetBlock s).build = s.build := rfl
@[simp] theorem resetBlock_inputs (s : State) : (resetBlock s).inputs = s.inputs := rfl
@[simp] theorem resetBlock_status (s : State) : (resetBlock s).status = Status.reset := rfl

/-! ### The checks that look at one field -/

@[simp] theorem waiting_eq_false_iff (st : Status) : waiting st = false ↔ st.waitst = .idle := by
  unfold waiting
  cases st.waitst <;> simp

@[simp] theorem waiting_eq_true_iff (st : Status) : waiting st = true ↔ st.waitst ≠ .idle := by
  unfold waiting
  cases st.waitst <;> simp

end Sys2Proof.Machine
end

