-- ==== Sys2Proof/Laws/Ops.lean ====
section
/-! SUPPORT. For each shared operation one lemma that says all it can do; later proofs cite it and do not unfold the
operation. -/

namespace Sys2Proof.Machine

/-! ## Error entry -/

/-- Error entry in full: `ERR` gets number and code, the two geometry errors set `ABORT`, the two timeouts end the wait,
and nothing else changes. -/
theorem takeError_eq (op : Byte) (e : ErrCode) (s : State) :
    takeError op e s =
      { s with
        err := { op := op, code := errNumber e }
        status :=
          match e with
          | .unsupportedGeometry => { s.status with abort := true }
          | .blockMarkInEccRegion => { s.status with abort := true }
          | .dmaTimeout => { s.status with waitst := .idle, waitE := false, descValid := false }
          | .eccTimeout => { s.status with waitst := .idle, waitE := false, descValid := false }
          | .inadequateDmaBuffer => s.status
          | .illegalCommand => s.status
          | .illegalSequence => s.status
          | .badOperand => s.status } := by
  cases e <;> rfl

@[simp] theorem takeError_illegalSequence (op : Byte) (s : State) :
    takeError op .illegalSequence s = { s with err := { op := op, code := 0x81 } } := rfl

@[simp] theorem takeError_badOperand (op : Byte) (s : State) :
    takeError op .badOperand s = { s with err := { op := op, code := 0x82 } } := rfl

@[simp] theorem takeError_illegalCommand (op : Byte) (s : State) :
    takeError op .illegalCommand s = { s with err := { op := op, code := 0x80 } } := rfl

@[simp] theorem takeError_inadequateDmaBuffer (op : Byte) (s : State) :
    takeError op .inadequateDmaBuffer s = { s with err := { op := op, code := 0x06 } } := rfl

@[simp] theorem takeError_err (op : Byte) (e : ErrCode) (s : State) :
    (takeError op e s).err = { op := op, code := errNumber e } := by cases e <;> rfl

@[simp] theorem takeError_geom (op : Byte) (e : ErrCode) (s : State) : (takeError op e s).geom = s.geom := by
  cases e <;> rfl

@[simp] theorem takeError_mem (op : Byte) (e : ErrCode) (s : State) : (takeError op e s).mem = s.mem := by
  cases e <;> rfl

@[simp] theorem takeError_build (op : Byte) (e : ErrCode) (s : State) : (takeError op e s).build = s.build := by
  cases e <;> rfl

@[simp] theorem takeError_inputs (op : Byte) (e : ErrCode) (s : State) : (takeError op e s).inputs = s.inputs := by
  cases e <;> rfl

@[simp] theorem takeError_sums (op : Byte) (e : ErrCode) (s : State) : (takeError op e s).sums = s.sums := by
  cases e <;> rfl

/-! ## Commands -/

/-- Everything a command can do: it is refused during a wait; it is turned away in the abort state; else its body's state
is kept with `ERR` telling success, or its body's error is taken on the state before. -/
theorem runCommand_cases {op : Byte} {body : State → Except ErrCode State} {s t : State}
    (h : runCommand op body s = .next t) :
    (waiting s.status = true ∧ t = refuseAccess s) ∨
      (waiting s.status = false ∧ s.status.abort = true ∧ t = takeError op .illegalSequence s) ∨
      (waiting s.status = false ∧ s.status.abort = false ∧ ∃ u, body s = .ok u ∧ t = succeed op u) ∨
      (waiting s.status = false ∧ s.status.abort = false ∧ ∃ e, body s = .error e ∧ t = takeError op e s) := by
  unfold runCommand at h
  split at h
  · rename_i hw
    cases h
    exact .inl ⟨hw, rfl⟩
  · rename_i hw
    rw [Bool.not_eq_true] at hw
    split at h
    · rename_i ha
      cases h
      exact .inr (.inl ⟨hw, ha, rfl⟩)
    · rename_i ha
      rw [Bool.not_eq_true] at ha
      split at h
      · rename_i u hu
        cases h
        exact .inr (.inr (.inl ⟨hw, ha, u, hu, rfl⟩))
      · rename_i e he
        cases h
        exact .inr (.inr (.inr ⟨hw, ha, e, he, rfl⟩))

/-- An accepted command whose body answers a state. -/
theorem runCommand_ok {op : Byte} {body : State → Except ErrCode State} {s u : State}
    (hw : waiting s.status = false) (ha : s.status.abort = false) (hb : body s = .ok u) :
    runCommand op body s = .next (succeed op u) := by
  simp [runCommand, hw, ha, hb]

/-- An accepted command whose body raises an error. -/
theorem runCommand_error {op : Byte} {body : State → Except ErrCode State} {s : State} {e : ErrCode}
    (hw : waiting s.status = false) (ha : s.status.abort = false) (hb : body s = .error e) :
    runCommand op body s = .next (takeError op e s) := by
  simp [runCommand, hw, ha, hb]

/-! ## The bodies of the operations -/

theorem geomBody_ok {s u : State} (h : geomBody s = .ok u) :
    s.status.geomValid = false ∧
      ∃ g, computeGeometry Config.eccBits s.pageSize s.oobSize s.cfg s.table = .ok g ∧ u = latchGeometry g s := by
  unfold geomBody at h
  split at h
  · cases h
  · rename_i hv
    split at h
    · cases h
    · rename_i g hg
      cases h
      exact ⟨by simpa using hv, g, hg, rfl⟩

theorem geomBody_error {s : State} {e : ErrCode} (h : geomBody s = .error e) :
    (s.status.geomValid = true ∧ e = .illegalSequence) ∨
      (s.status.geomValid = false ∧
        computeGeometry Config.eccBits s.pageSize s.oobSize s.cfg s.table = .error e) := by
  unfold geomBody at h
  split at h
  · rename_i hv
    cases h
    exact .inl ⟨hv, rfl⟩
  · rename_i hv
    split at h
    · rename_i e' he
      cases h
      exact .inr ⟨by simpa using hv, he⟩
    · cases h

/-- What the computation of the geometry answers when it succeeds. -/
theorem computeGeometry_ok {ecc : Nat → Nat → Nat} {page oob : Word} {c : Cfg}
    {t : Vector TableEntry Config.nTable} {g : Geometry} (h : computeGeometry ecc page oob c t = .ok g) :
    ∃ strength, lookupStrength t page oob = some strength ∧ page ≠ 0 ∧ page.toNat % chunkSizeOf c = 0 ∧
      ((c.swap = true ∧
          ∃ mark, blockMark page.toNat (chunkSizeOf c) (ecc (chunkSizeOf c) strength.toNat) = some mark ∧
            g = layoutGeometry page.toNat (chunkSizeOf c) strength mark) ∨
        (c.swap = false ∧ g = layoutGeometry page.toNat (chunkSizeOf c) strength (0, 0))) := by
  unfold computeGeometry at h
  split at h
  · cases h
  · rename_i strength hl
    split at h
    · cases h
    · rename_i hp
      rw [not_or, not_not] at hp
      refine ⟨strength, hl, hp.1, hp.2, ?_⟩
      split at h
      · rename_i hs
        split at h
        · cases h
        · rename_i mark hm
          cases h
          exact .inl ⟨hs, mark, hm, rfl⟩
      · rename_i hs
        cases h
        exact .inr ⟨by simpa using hs, rfl⟩

/-- The errors the computation of the geometry can raise. -/
theorem computeGeometry_error {ecc : Nat → Nat → Nat} {page oob : Word} {c : Cfg}
    {t : Vector TableEntry Config.nTable} {e : ErrCode} (h : computeGeometry ecc page oob c t = .error e) :
    e = .unsupportedGeometry ∨ e = .badOperand ∨ (e = .blockMarkInEccRegion ∧ c.swap = true) := by
  unfold computeGeometry at h
  split at h
  · cases h
    exact .inl rfl
  · split at h
    · cases h
      exact .inr (.inl rfl)
    · split at h
      · rename_i hs
        split at h
        · cases h
          exact .inr (.inr ⟨rfl, hs⟩)
        · cases h
      · cases h

theorem tsynBody_ok {s u : State} (h : tsynBody s = .ok u) : s.target.clkPeriodNs ≠ 0 ∧ u = latchTiming s := by
  unfold tsynBody at h
  split at h
  · cases h
  · rename_i hp
    cases h
    exact ⟨hp, rfl⟩

theorem tsynBody_error {s : State} {e : ErrCode} (h : tsynBody s = .error e) :
    s.target.clkPeriodNs = 0 ∧ e = .badOperand := by
  unfold tsynBody at h
  split at h
  · rename_i hp
    cases h
    exact ⟨hp, rfl⟩
  · cases h

theorem selectBuffers_some {g : Geometry} {d : DmaOperands} {b : Buffers} (h : selectBuffers g d = some b) :
    ((payloadTooSmall g d = true ∨ auxTooSmall g d = true) → pagebufTooSmall g d = false) ∧
      b =
        { bounceP := payloadTooSmall g d, bounceA := auxTooSmall g d
          effPayload := if payloadTooSmall g d then d.pagebufAddr else d.payloadAddr
          effAux := if auxTooSmall g d then d.pagebufAddr + g.payloadSize else d.auxAddr } := by
  unfold selectBuffers at h
  split at h
  · cases h
  · rename_i hc
    cases h
    refine ⟨fun ho => ?_, rfl⟩
    by_contra hp
    rw [Bool.not_eq_false] at hp
    apply hc
    rcases ho with ho | ho <;> simp [ho, hp]

/-- What the checks of both builders answer when all pass. -/
theorem builderChecks_ok {s : State} {b : Buffers} (h : builderChecks s = .ok b) :
    s.status.geomValid = true ∧ s.dma.chainAddr.toNat % 4 = 0 ∧ selectBuffers s.geom s.dma = some b := by
  unfold builderChecks at h
  split at h
  · cases h
  · rename_i hv
    split at h
    · cases h
    · rename_i hc
      split at h
      · cases h
      · rename_i b' hb
        cases h
        exact ⟨by simpa using hv, by simpa using hc, hb⟩

/-- The errors the checks of both builders can raise, in their order. -/
theorem builderChecks_error {s : State} {e : ErrCode} (h : builderChecks s = .error e) :
    (s.status.geomValid = false ∧ e = .illegalSequence) ∨
      (s.status.geomValid = true ∧ s.dma.chainAddr.toNat % 4 ≠ 0 ∧ e = .badOperand) ∨
      (s.status.geomValid = true ∧ s.dma.chainAddr.toNat % 4 = 0 ∧ selectBuffers s.geom s.dma = none ∧
        e = .inadequateDmaBuffer) := by
  unfold builderChecks at h
  split at h
  · rename_i hv
    cases h
    exact .inl ⟨hv, rfl⟩
  · rename_i hv
    have hv' : s.status.geomValid = true := by simpa using hv
    split at h
    · rename_i hc
      cases h
      exact .inr (.inl ⟨hv', hc, rfl⟩)
    · rename_i hc
      split at h
      · rename_i hb
        cases h
        exact .inr (.inr ⟨hv', by simpa using hc, hb, rfl⟩)
      · cases h

theorem dbrdBody_ok {s u : State} (h : dbrdBody s = .ok u) :
    ∃ b, builderChecks s = .ok b ∧ u = latchChain false (readChain s b) b s := by
  unfold dbrdBody at h
  split at h
  · cases h
  · rename_i b hb
    cases h
    exact ⟨b, hb, rfl⟩

theorem dbrdBody_error {s : State} {e : ErrCode} (h : dbrdBody s = .error e) : builderChecks s = .error e := by
  unfold dbrdBody at h
  split at h
  · rename_i e' he
    cases h
    exact he
  · cases h

theorem dbwrBody_ok {s u : State} (h : dbwrBody s = .ok u) :
    ∃ b, builderChecks s = .ok b ∧ u = latchChain true (writeChain s b) b s := by
  unfold dbwrBody at h
  split at h
  · cases h
  · rename_i b hb
    cases h
    exact ⟨b, hb, rfl⟩

theorem dbwrBody_error {s : State} {e : ErrCode} (h : dbwrBody s = .error e) : builderChecks s = .error e := by
  unfold dbwrBody at h
  split at h
  · rename_i e' he
    cases h
    exact he
  · cases h

theorem pwaitBody_ok {e : Bool} {s u : State} (h : pwaitBody e s = .ok u) :
    s.status.descValid = true ∧ u = advance (enterWait e s) := by
  unfold pwaitBody at h
  split at h
  · cases h
  · rename_i hd
    cases h
    exact ⟨by simpa using hd, rfl⟩

theorem pwaitBody_error {e : Bool} {s : State} {c : ErrCode} (h : pwaitBody e s = .error c) :
    s.status.descValid = false ∧ c = .illegalSequence := by
  unfold pwaitBody at h
  split at h
  · rename_i hd
    cases h
    exact ⟨hd, rfl⟩
  · cases h

theorem eaggBody_ok {s u : State} (h : eaggBody s = .ok u) :
    s.status.geomValid = true ∧ u = latchAggregate (aggregateOf s).1 (aggregateOf s).2 s := by
  unfold eaggBody at h
  split at h
  · cases h
  · rename_i hv
    cases h
    exact ⟨by simpa using hv, rfl⟩

theorem eaggBody_error {s : State} {e : ErrCode} (h : eaggBody s = .error e) :
    s.status.geomValid = false ∧ e = .illegalSequence := by
  unfold eaggBody at h
  split at h
  · rename_i hv
    cases h
    exact ⟨hv, rfl⟩
  · cases h

theorem bswpBody_ok {s u : State} (h : bswpBody s = .ok u) :
    s.status.geomValid = true ∧ s.status.bmValid = true ∧
      u = { s with mem := swapMark s.mem s.geom.bmBitOff.toNat (markAddr s) s.ext.auxAddr } := by
  unfold bswpBody at h
  split at h
  · cases h
  · rename_i hv
    rw [not_or] at hv
    cases h
    exact ⟨by simpa using hv.1, by simpa using hv.2, rfl⟩

theorem bswpBody_error {s : State} {e : ErrCode} (h : bswpBody s = .error e) :
    (s.status.geomValid = false ∨ s.status.bmValid = false) ∧ e = .illegalSequence := by
  unfold bswpBody at h
  split at h
  · rename_i hv
    cases h
    exact ⟨hv, rfl⟩
  · cases h

/-! ## The wait state machine -/

/-- Everything `advance` can do, by the wait state and the latches it finds. -/
theorem advance_eq (s : State) :
    advance s =
      match s.status.waitst, s.status.dmaL, s.status.waitE, s.status.eccL with
      | .waitDma, true, false, _ => finishWait { s with status := { s.status with dmaL := false } }
      | .waitDma, true, true, false => { s with status := { s.status with dmaL := false, waitst := .waitEcc } }
      | .waitDma, true, true, true =>
        finishWait { s with status := { s.status with dmaL := false, waitst := .waitEcc, eccL := false } }
      | .waitEcc, _, _, true => finishWait { s with status := { s.status with eccL := false } }
      | .waitDma, false, _, _ => s
      | .waitEcc, _, _, false => s
      | .idle, _, _, _ => s := by
  unfold advance advanceEcc advanceDma
  cases hw : s.status.waitst <;> cases hd : s.status.dmaL <;> cases he : s.status.waitE <;>
    cases hc : s.status.eccL <;> simp [hw, hd, hc, finishWait, endWait, setErr]

/-- `advance` touches `STATUS` and `ERR` only. -/
theorem advance_frame (s : State) : advance s = { s with status := (advance s).status, err := (advance s).err } := by
  rw [advance_eq]
  split <;> rfl

@[simp] theorem advance_geom (s : State) : (advance s).geom = s.geom := by rw [advance_frame]
@[simp] theorem advance_mem (s : State) : (advance s).mem = s.mem := by rw [advance_frame]
@[simp] theorem advance_build (s : State) : (advance s).build = s.build := by rw [advance_frame]
@[simp] theorem advance_inputs (s : State) : (advance s).inputs = s.inputs := by rw [advance_frame]

/-! ## The register file -/

/-- A host write to a register other than `CMD` touches operand registers only: no status, no result, no bus space. -/
theorem writeReg_frame (s : State) (v : Word) (r : Reg) :
    (writeReg s v r).status = s.status ∧ (writeReg s v r).err = s.err ∧ (writeReg s v r).geom = s.geom ∧
      (writeReg s v r).timing = s.timing ∧ (writeReg s v r).chain = s.chain ∧ (writeReg s v r).agg = s.agg ∧
      (writeReg s v r).mem = s.mem ∧ (writeReg s v r).build = s.build ∧ (writeReg s v r).inputs = s.inputs ∧
      (writeReg s v r).reply = s.reply := by
  cases r <;> simp [writeReg, setEntry]

/-! ## The step -/

/-- Everything a step can do: nothing, with no input left; else the first input is performed. -/
theorem step_cases {s t : State} (h : step s = .next t) :
    (s.inputs = [] ∧ t = s) ∨ ∃ a rest, s.inputs = a :: rest ∧ perform a { s with inputs := rest } = .next t := by
  unfold step takeInput at h
  split at h
  · rename_i hi
    cases h
    exact .inl ⟨hi, rfl⟩
  · rename_i a rest hi
    exact .inr ⟨a, rest, hi, h⟩

/-- Everything a host write can do: it is refused; it is an illegal command; it is an operation; or it is a register
write. -/
theorem hostWrite_cases {w : Width} {off data : Word} {s t : State} (h : hostWrite w off data s = .next t) :
    t = refuseAccess s ∨
      (accessedReg w off = some .cmd ∧ waiting s.status = false ∧ (∃ e, decodeWord s.build data = .error e) ∧
        t = takeError (opField data) .illegalCommand (acceptWrite s)) ∨
      (accessedReg w off = some .cmd ∧ ∃ i, decodeWord s.build data = .ok i ∧ exec i (acceptWrite s) = .next t) ∨
      (waiting s.status = false ∧ ∃ r, accessedReg w off = some r ∧ r ≠ .cmd ∧ t = writeReg (acceptWrite s) data r) := by
  unfold hostWrite at h
  split at h
  · cases h
    exact .inl rfl
  · rename_i r hr
    split at h
    · rename_i hc
      subst hc
      unfold hostCommand at h
      split at h
      · rename_i i hi
        exact .inr (.inr (.inl ⟨hr, i, hi, h⟩))
      · rename_i e he
        unfold illegalCommand at h
        split at h
        · cases h
          exact .inl rfl
        · rename_i hw
          cases h
          exact .inr (.inl ⟨hr, by simpa using hw, ⟨e, he⟩, rfl⟩)
    · rename_i hc
      split at h
      · cases h
        exact .inl rfl
      · rename_i hw
        cases h
        exact .inr (.inr (.inr ⟨by simpa using hw, r, hr, hc, rfl⟩))

/-- Everything a host read can do: it is refused, or it answers the register's value. -/
theorem hostRead_cases {w : Width} {off : Word} {s t : State} (h : hostRead w off s = .next t) :
    t = refuseAccess s ∨ ∃ r, accessedReg w off = some r ∧ t = { s with reply := .data (readReg s r) } := by
  unfold hostRead at h
  split at h
  · cases h
    exact .inl rfl
  · rename_i r hr
    cases h
    exact .inr ⟨r, hr, rfl⟩

/-- Everything an event can do. -/
theorem takeEvent_cases {e : Event} {s t : State} (h : takeEvent e s = .next t) :
    (e = .dmaDone ∧ t = dmaDone s) ∨ (e = .eccDone ∧ t = eccDone s) ∨
      (e = .dmaTimeout ∧ s.status.waitst = .waitDma ∧ t = takeError 0x06 .dmaTimeout s) ∨
      (e = .eccTimeout ∧ s.status.waitst = .waitEcc ∧ t = takeError 0x06 .eccTimeout s) := by
  unfold takeEvent at h
  split at h
  · cases h
    exact .inl ⟨rfl, rfl⟩
  · cases h
    exact .inr (.inl ⟨rfl, rfl⟩)
  · split at h
    · rename_i hw
      cases h
      exact .inr (.inr (.inl ⟨rfl, hw, rfl⟩))
    · cases h
  · split at h
    · rename_i hw
      cases h
      exact .inr (.inr (.inr ⟨rfl, hw, rfl⟩))
    · cases h

end Sys2Proof.Machine
end

