-- ==== Sys2Proof/Laws/PerInstr.lean ====
section
/-! SUPPORT. A statement about every operation's word, one lemma for each constructor: the fields of the command format
(30_encoding.md R80, R81). -/

namespace Sys2Proof.Laws.CommandFields

/-- The word's fields: bits 31:9 are 0, `OP` is the operation's number, and `E` is 1 only for `PWAIT.E` (R80). -/
def Statement (i : Instr) : Prop :=
  zeroField (encode i) = 0 ∧ opField (encode i) = opByte i ∧ (eField (encode i) = true ↔ i = .pwait true)

theorem geom : Statement .geom := ⟨by decide, by decide, by decide⟩
theorem ginv : Statement .ginv := ⟨by decide, by decide, by decide⟩
theorem tsyn : Statement .tsyn := ⟨by decide, by decide, by decide⟩
theorem dbrd : Statement .dbrd := ⟨by decide, by decide, by decide⟩
theorem dbwr : Statement .dbwr := ⟨by decide, by decide, by decide⟩
theorem pwait (e : Bool) : Statement (.pwait e) := by
  cases e <;> exact ⟨by decide, by decide, by decide⟩
theorem eagg : Statement .eagg := ⟨by decide, by decide, by decide⟩
theorem bswp : Statement .bswp := ⟨by decide, by decide, by decide⟩
theorem clrf : Statement .clrf := ⟨by decide, by decide, by decide⟩

end Sys2Proof.Laws.CommandFields
end

