-- ==== Sys2Proof/Tests/Slice0.lean ====
section
/-! SUPPORT. Tests. Expected values come from spec/95_test_vectors.md (the vector is named) or from the encoding tables of
spec/30_encoding.md; the witnesses at the end meet the hypotheses of the statements. -/

namespace Sys2Proof.Tests

open Sys2Proof Sys2Proof.Machine

/-! ## WellFormed -/

/-- `EAGG` belongs only to builds with extension A (30_encoding.md R82). -/
theorem test_eagg_needs_extension_A :
    wellFormed { extA := false, extS := true } .eagg = false ∧ wellFormed { extA := true, extS := false } .eagg = true := by
  decide

/-- `BSWP` belongs only to builds with extension S (R82). -/
theorem test_bswp_needs_extension_S :
    wellFormed { extA := true, extS := false } .bswp = false ∧ wellFormed { extA := false, extS := true } .bswp = true := by
  decide

/-! ## Command words, written out bit by bit: 31:9 zero, 8 `E`, 7:0 `OP` (30_encoding.md R80, R81) -/

theorem test_decode_geom :
    decodeWord Build.full 0b00000000000000000000000_0_00000001 = .ok .geom := by rfl
theorem test_decode_ginv :
    decodeWord Build.full 0b00000000000000000000000_0_00000010 = .ok .ginv := by rfl
theorem test_decode_tsyn :
    decodeWord Build.full 0b00000000000000000000000_0_00000011 = .ok .tsyn := by rfl
theorem test_decode_dbrd :
    decodeWord Build.full 0b00000000000000000000000_0_00000100 = .ok .dbrd := by rfl
theorem test_decode_dbwr :
    decodeWord Build.full 0b00000000000000000000000_0_00000101 = .ok .dbwr := by rfl
theorem test_decode_pwait :
    decodeWord Build.full 0b00000000000000000000000_0_00000110 = .ok (.pwait false) := by rfl
theorem test_decode_pwait_e :
    decodeWord Build.full 0b00000000000000000000000_1_00000110 = .ok (.pwait true) := by rfl
theorem test_decode_eagg :
    decodeWord Build.full 0b00000000000000000000000_0_00000111 = .ok .eagg := by rfl
theorem test_decode_bswp :
    decodeWord Build.full 0b00000000000000000000000_0_00001000 = .ok .bswp := by rfl
theorem test_decode_clrf :
    decodeWord Build.full 0b00000000000000000000000_0_00001001 = .ok .clrf := by rfl

/-- Vectors X1 to X8 and the two words a base build lacks: each is refused for its own reason. -/
theorem test_illegal_words :
    decodeWord Build.full 0x00000000 = .error .reservedOp ∧ decodeWord Build.full 0x0000000A = .error .reservedOp ∧
      decodeWord Build.full 0x000000FF = .error .reservedOp ∧ decodeWord Build.full 0x00010001 = .error .zeroField ∧
      decodeWord Build.full 0x00000101 = .error .strayE ∧ decodeWord Build.full 0x00000109 = .error .strayE ∧
      decodeWord Build.full 0x00000206 = .error .zeroField ∧ decodeWord Build.full 0x80000006 = .error .zeroField ∧
      decodeWord Build.base 0x00000007 = .error .extensionAbsent ∧
      decodeWord Build.base 0x00000008 = .error .extensionAbsent := by
  refine ⟨rfl, rfl, rfl, rfl, rfl, rfl, rfl, rfl, rfl, rfl⟩

/-- The table's own numbering: word 0x106 of 32 bits is `PWAIT.E`. -/
theorem test_table_word : decodeTableWord 32 0x106 = some (.pwait true) ∧ decodeTableWord 32 0x10000 = none := by
  refine ⟨rfl, rfl⟩

/-! ## Registers and the slave port -/

/-- The state an outcome answers, if any. -/
def answer (o : Outcome) : Option State :=
  match o with
  | .next t => some t
  | .fault _ => none
  | .refused _ => none

/-- Vectors RA1, RA3, RA4, RA6: the kept bits of `CFG`, `T_KNOWN`, `D_CHIP`, `TBL_CTRL`. -/
theorem test_kept_bits :
    readReg (writeReg State.reset 0xFFFFFFFF .cfg) .cfg = 0x7 ∧
      readReg (writeReg State.reset 0x0000000D .tKnown) .tKnown = 0x5 ∧
      readReg (writeReg State.reset 0x0000001F .dChip) .dChip = 0xF ∧
      readReg (writeReg State.reset 0x00000003 (.tblCtrl 7)) (.tblCtrl 7) = 0x1 := by
  decide

/-- Vectors RA17 and RA18: holes of the map, offsets past its end, and other widths than 32 bits are refused. -/
theorem test_refused_accesses :
    accessedReg .w32 0x018 = none ∧ accessedReg .w32 0x0FC = none ∧ accessedReg .w32 0x17C = some (.tblCtrl 7) ∧
      accessedReg .w32 0x180 = none ∧ accessedReg .w16 0x00C = none ∧ accessedReg .w32 0x00E = none ∧
      accessedReg .w64 0x010 = none := by
  decide

/-! ## Operations -/

/-- A table whose entry `i` is valid and all others empty. -/
def tableWith (i : Fin 8) (page oob strength : Word) : Vector TableEntry Config.nTable :=
  (Vector.replicate Config.nTable TableEntry.reset).set i.val { page := page, oob := oob, strength := strength, valid := true }

/-- `CFG` as the vectors write it. -/
def swapOn : Cfg := { swap := true, chunk1k := false, bus16 := false }

/-- Vectors G4 (bit offset 3, `ecc_bits = 13 s`) and G20 (the boundary `r = D`). -/
theorem test_geom_vectors :
    computeGeometry (fun _ s => 13 * s) 2048 128 swapOn (tableWith 0 2048 128 3) =
        .ok
          { eccStrength := 3, chunkSize := 512, chunkCount := 4, metadataSize := 10, payloadSize := 2048, auxSize := 16
            auxStatusOff := 12, bmByteOff := 2023, bmBitOff := 3 } ∧
      computeGeometry (fun _ s => 13 * s) 8192 448 swapOn (tableWith 0 8192 448 48) = .error .blockMarkInEccRegion := by
  refine ⟨rfl, rfl⟩

/-- Vector X16: `GEOM` on an empty table writes 0x0101 to `ERR` and sets `ABORT` alone. -/
theorem test_geom_empty_table :
    (answer (exec .geom State.reset)).map (fun t => (readReg t .status, readReg t .err)) =
      some (0x8000, 0x0101) := by
  decide

/-- A geometry as vector G1 leaves it, `STATUS = 0x0003`. -/
def afterGeom : State :=
  { State.reset with
    geom :=
      { eccStrength := 8, chunkSize := 512, chunkCount := 4, metadataSize := 10, payloadSize := 2048, auxSize := 16
        auxStatusOff := 12, bmByteOff := 1999, bmBitOff := 0 }
    status := { Status.reset with geomValid := true, bmValid := true } }

/-- The start of the chain vectors, D1: both buffers fit exactly. -/
def beforeChain : State :=
  { afterGeom with
    dma :=
      { payloadAddr := 0x80000000, payloadLen := 2048, auxAddr := 0x80001000, auxLen := 16, pagebufAddr := 0x90000000
        pagebufLen := 2064, chainAddr := 0x70000000, chip := 1 } }

/-- The flags after D1, `STATUS = 0x0013`. -/
def afterChain : State := { beforeChain with status := { beforeChain.status with descValid := true } }

/-- In the wait of W1, `STATUS = 0x4113`. -/
def inWait : State := { afterChain with status := { afterChain.status with waitst := .waitDma, waitE := true } }

/-- As vector V1: `GINV` keeps `TIMING_VALID` and `DMA_L` and clears the five flags. -/
theorem test_ginv :
    (answer
        (exec .ginv
          { afterGeom with
            status :=
              { afterGeom.status with
                timingValid := true, descValid := true, dmaL := true, aggValid := true, report := true } })).map
        (fun t => (readReg t .status, readReg t .err, readReg t .gPayloadSize)) =
      some (0x0404, 0x0200, 0) := by
  decide

/-- The operands of vector T3: two turns of the Basic trade. -/
def basicTarget : Target :=
  { dataSetupNs := 20, dataHoldNs := 0, addrSetupNs := 0, sampleDelayNs := 30, treaNs := 0, trlohNs := 0, trhohNs := 0
    known := 0, clkPeriodNs := 10 }

/-- The controller limits of vector T3. -/
def basicLimits : Limits :=
  { maxSetupCyc := 15, maxSdf := 15, intSetupNs := 5, maxDllPeriodNs := 32, maxDllDelayNs := 16, minPropNs := 0
    maxPropNs := 0 }

/-- Vector T3: the Basic path trades two periods of delay for setup cycles. -/
theorem test_tsyn_basic :
    timingOf basicTarget basicLimits =
      { dataSetupCyc := 4, dataHoldCyc := 0, addrSetupCyc := 0, halfPeriods := false, sdf := 12 } := by
  decide

/-- The operands of vector T18: Eye-aware, the eye must be opened first. -/
def eyeTarget : Target :=
  { dataSetupNs := 0, dataHoldNs := 3, addrSetupNs := 14, sampleDelayNs := 0, treaNs := 19, trlohNs := 8, trhohNs := 4
    known := 7, clkPeriodNs := 30 }

/-- The controller limits of vector T18. -/
def eyeLimits : Limits :=
  { maxSetupCyc := 15, maxSdf := 7, intSetupNs := 0, maxDllPeriodNs := 64, maxDllDelayNs := 32, minPropNs := 3
    maxPropNs := 15 }

/-- Vector T18: open, shrink, grow. -/
theorem test_tsyn_eye :
    timingOf eyeTarget eyeLimits =
        { dataSetupCyc := 2, dataHoldCyc := 1, addrSetupCyc := 1, halfPeriods := false, sdf := 0 } ∧
      (pathOf eyeTarget eyeLimits).warn = false := by
  decide

/-- Vector D5: both buffers bounce; the flags, the results and the first bytes of descriptor 1. -/
theorem test_dbrd :
    (answer (exec .dbrd { beforeChain with dma := { beforeChain.dma with payloadLen := 2047, auxLen := 0 } })).map
        (fun t =>
          (readReg t .status, readReg t .err, readReg t .dEffAux, readWord t.mem 0x70000018, readByte t.mem 0x70000014)) =
      some (0x00D3, 0x0400, 0x90000800, 0x0000112A, 0x28) := by
  decide

/-- Vector D6: the PageBuffer is one byte too small; nothing but `ERR` is written. -/
theorem test_dbrd_inadequate :
    (answer
        (exec .dbrd { beforeChain with dma := { beforeChain.dma with payloadLen := 0, pagebufLen := 2063 } })).map
        (fun t => (readReg t .status, readReg t .err, readReg t .dCount, t.mem.cells)) =
      some (0x0003, 0x0406, 0, []) := by
  decide

/-- Vector D20: a write chain whose first descriptor straddles the end of the address space. -/
theorem test_dbwr_wrap :
    (answer (exec .dbwr { beforeChain with dma := { beforeChain.dma with chainAddr := 0xFFFFFFF8 } })).map
        (fun t => (readWord t.mem 0xFFFFFFF8, readWord t.mem 0xFFFFFFFC, readWord t.mem 0x00000000)) =
      some (0x0000000C, 0x000012AA, 0x00000810) := by
  decide

/-- Vector W4: the DMA completion is latched already, so `PWAIT.E` passes to `WAIT_ECC` at once. -/
theorem test_pwait_e_latched :
    (answer (exec (.pwait true) { afterChain with status := { afterChain.status with dmaL := true } })).map
        (fun t => (readReg t .status, readReg t .err)) =
      some (0x4213, 0x0600) := by
  decide

/-- Vector W5: a plain `PWAIT` waits for the DMA completion. -/
theorem test_pwait : (answer (exec (.pwait false) afterChain)).map (fun t => readReg t .status) = some 0x0113 := by
  decide

/-- Vectors A6 and A8 on the suggested sentinels: both counts, and a threshold of -1. -/
theorem test_eagg_counts :
    aggregate ⟨0xFF, 0x00, 0xFE⟩ (writeWord { cells := [] } 0x100 0x01FE08FE) 4 0x100 0 0 = (2, 9) ∧
      reportable 0 0 0 = true ∧ reportable 0 6 8 = false := by
  decide

/-- Vector A14: `EAGG` in the reset state. -/
theorem test_eagg_without_geometry :
    (answer (exec .eagg State.reset)).map (fun t => (readReg t .status, readReg t .err)) = some (0, 0x0781) := by
  decide

/-- Bus space with the three bytes of vector B13, which wraps around the end of the address space. -/
def markBytes : Memory :=
  writeByte (writeByte (writeByte { cells := [] } 0xFFFFFFFF 0xA5) 0x00000000 0x3C) 0x00000100 0xFF

/-- The state before vector B13's `BSWP`. -/
def beforeSwap : State :=
  { afterGeom with
    geom := { afterGeom.geom with bmByteOff := 2023, bmBitOff := 3 }
    ext := { payloadAddr := 0xFFFFF818, auxAddr := 0x100 }
    mem := markBytes }

/-- Vector B13: bit offset 3, the second payload byte at address 0. -/
theorem test_bswp :
    (answer (exec .bswp beforeSwap)).map
        (fun t => (readByte t.mem 0x100, readByte t.mem 0xFFFFFFFF, readByte t.mem 0, readReg t .err)) =
      some (0x94, 0xFD, 0x3F, 0x0800) := by
  decide

/-- Vector B14: the auxiliary byte is the first payload byte; the later store wins. -/
theorem test_bswp_overlap :
    readByte (swapMark markBytes 3 0xFFFFFFFF 0xFFFFFFFF) 0xFFFFFFFF = 0x2D ∧
      readByte (swapMark markBytes 3 0xFFFFFFFF 0xFFFFFFFF) 0 = 0x3D := by
  decide

/-- Vector F1: `CLRF` leaves the abort state and clears both fields of `ERR`. -/
theorem test_clrf :
    (answer
        (exec .clrf
          { State.reset with
            status := { Status.reset with abort := true, timingValid := true }, err := { op := 1, code := 1 } })).map
        (fun t => (readReg t .status, readReg t .err)) =
      some (0x0004, 0) := by
  decide

/-- Vector W9: during a wait a command is refused and `ERR` keeps its value. -/
theorem test_clrf_in_wait :
    (answer (exec .clrf inWait)).map (fun t => (readReg t .status, t.reply)) = some (0x4113, .busError) := by
  decide

/-- Vector W2: `ecc_done` first, then `dma_done` ends the wait. -/
theorem test_events :
    (answer (Host.Core.run core 2 { inWait with inputs := [.event .eccDone, .event .dmaDone] })).map
        (fun t => (readReg t .status, readReg t .err)) =
      some (0x0003, 0x0600) := by
  decide

/-- A script (the first lines of program P1): five register writes, then a read that sees `TBL_CTRL[1]`. -/
theorem test_script :
    (runScript [.tbl 1 4096 224 16, .wr .cfg 1, .rd (.tblCtrl 1) (some 1), .rd .cfg (some 1)] State.reset).map
        (fun x => (x.2, readReg x.1 (.tblOob 1))) =
      some (true, 224) := by
  decide

/-! ## Witnesses: a state and operands that meet the hypotheses of each statement that has some

The name after `witness_` is the statement's. -/

/-- The state after reset with inputs to come. -/
def resetWithInputs (inputs : List Action) : State := { State.reset with inputs := inputs }

/-- The abort state. -/
def aborted : State := { State.reset with status := { Status.reset with abort := true } }

/-- In `WAIT_ECC`. -/
def inWaitEcc : State := { inWait with status := { inWait.status with waitst := .waitEcc } }

theorem afterGeom_ready : Ready afterGeom := ⟨rfl, rfl⟩
theorem beforeChain_ready : Ready beforeChain := ⟨rfl, rfl⟩
theorem reset_ready : Ready State.reset := ⟨rfl, rfl⟩

/-- The geometry of vector G1 meets the relations of 40_geometry.md R111. -/
theorem afterGeom_relations : GeometryRelations afterGeom.geom true :=
  ⟨by decide, by decide, by decide, by decide, by decide⟩

theorem witness_DecodeEncodeAgree :
    decodeWord Build.base 0x106 = .ok (.pwait true) ∧ wellFormed Build.base (.pwait true) = true ∧
      encode (.pwait true) = 0x106 := ⟨rfl, rfl, rfl⟩

/-- A word of each of the five illegal cases, at the boundary of its range. -/
theorem witness_IllegalWordsExactly :
    (resetWithInputs [commandInput 0x0A]).inputs = [commandInput 0x0A] ∧
      waiting (resetWithInputs [commandInput 0x0A]).status = false ∧
      (∃ e, decodeWord Build.full 0x0A = .error e) ∧ (∃ e, decodeWord Build.full 0x00 = .error e) ∧
      (∃ e, decodeWord Build.full 0x206 = .error e) ∧ (∃ e, decodeWord Build.full 0x105 = .error e) ∧
      (∃ e, decodeWord Build.base 0x07 = .error e) ∧ (∃ e, decodeWord Build.base 0x08 = .error e) :=
  ⟨rfl, rfl, ⟨_, rfl⟩, ⟨_, rfl⟩, ⟨_, rfl⟩, ⟨_, rfl⟩, ⟨_, rfl⟩, ⟨_, rfl⟩⟩

theorem witness_StepRunsDecodedCommand :
    (resetWithInputs [commandInput 0x003]).inputs = [commandInput 0x003] ∧
      decodeWord (resetWithInputs [commandInput 0x003]).build 0x003 = .ok .tsyn ∧
      decodeWord State.reset.build (BitVec.ofNat 32 (0x106 % 2 ^ 32)) = .ok (.pwait true) := ⟨rfl, rfl, rfl⟩

/-- The first and the last offset of the map. -/
theorem witness_HostReadAnswersRegister :
    (resetWithInputs [.read .w32 0x17C]).inputs = [.read .w32 0x17C] ∧ regAt (0x17C : Word).toNat = some (.tblCtrl 7) ∧
      (resetWithInputs [.read .w32 0x000]).inputs = [.read .w32 0x000] ∧ regAt (0x000 : Word).toNat = some .cmd := by
  decide

/-- Each clause: a wrong width at a listed offset, a hole, the first offset past the map; a read and a write. -/
theorem witness_RefusedAccessChangesNothing :
    Width.w16 ≠ Width.w32 ∧ regAt (0x018 : Word).toNat = none ∧ regAt (0x180 : Word).toNat = none ∧
      (resetWithInputs [.read .w16 0x00C]).inputs = [.read .w16 0x00C] ∧
      (resetWithInputs [.write .w32 0x180 1]).inputs = [.write .w32 0x180 1] := by
  decide

theorem witness_WaitRefusesEveryWrite :
    inWait.status.waitst ≠ .idle ∧
      ({ inWait with inputs := [.write .w32 0x00C 0] } : State).inputs = [.write .w32 0x00C 0] ∧
      ({ inWait with inputs := [.read .w32 0x004] } : State).inputs = [.read .w32 0x004] ∧
      regAt (0x004 : Word).toNat = some .status := by
  decide

theorem witness_RegisterMapIsOneToOne : regAt 0x17C = some (.tblCtrl 7) ∧ regAt 0x000 = some .cmd := by decide

/-- A `RW` register with few kept bits, and a `RO` register. -/
theorem witness_HostWriteReadsBack :
    (resetWithInputs [regWrite (.tblCtrl 7) 3]).inputs = [regWrite (.tblCtrl 7) 3] ∧
      waiting (resetWithInputs [regWrite (.tblCtrl 7) 3]).status = false ∧ Reg.tblCtrl 7 ≠ .cmd ∧
      regAccess (.tblCtrl 7) = .rw ∧ (resetWithInputs [regWrite .hSdf 0x55]).inputs = [regWrite .hSdf 0x55] ∧
      Reg.hSdf ≠ .cmd ∧ regAccess .hSdf = .ro := by
  decide

theorem witness_ResetReadsZero : ({ inWait with inputs := [.reset] } : State).inputs = [.reset] := rfl

theorem witness_AbortStateTurnsCommandsAway :
    waiting aborted.status = false ∧ aborted.status.abort = true ∧ Instr.tsyn ≠ .clrf ∧ Reg.clkPeriodNs ≠ .cmd ∧
      ({ aborted with inputs := [regWrite .clkPeriodNs 20] } : State).inputs = [regWrite .clkPeriodNs 20] ∧
      ({ aborted with inputs := [.event .dmaDone] } : State).inputs = [.event .dmaDone] ∧
      ({ aborted with inputs := [.event .eccDone] } : State).inputs = [.event .eccDone] := by
  decide

/-- An error that enters the abort state, and one that does not. -/
theorem witness_FailedCommandWritesOnlyErr :
    waiting State.reset.status = false ∧ (∃ t, exec .geom State.reset = .next t ∧ t.err.code ≠ 0) ∧
      ∃ t, exec .tsyn State.reset = .next t ∧ t.err.code ≠ 0 :=
  ⟨rfl, ⟨_, rfl, by decide⟩, _, rfl, by decide⟩

theorem witness_OnlyListedErrorsAreRaised :
    waiting State.reset.status = false ∧ State.reset.cfg.swap = false ∧ ∃ t, exec .geom State.reset = .next t :=
  ⟨rfl, rfl, _, rfl⟩

/-- The operands of vector G16 with a second match at a greater index: 512 bytes, swapping on. One chunk, so the mark lies
in data bits whatever the parity function is. -/
def oneChunk : State :=
  { State.reset with
    pageSize := 512
    oobSize := 16
    cfg := swapOn
    table := (tableWith 3 512 16 1).set 5 { page := 512, oob := 16, strength := 2, valid := true } }

theorem witness_GeomComputesGeometry :
    Ready oneChunk ∧ oneChunk.status.geomValid = false ∧
      (oneChunk.table[(3 : Fin 8)].valid = true ∧ oneChunk.table[(3 : Fin 8)].page = oneChunk.pageSize ∧
        oneChunk.table[(3 : Fin 8)].oob = oneChunk.oobSize) ∧
      (∀ j : Fin 8, j < 3 →
        ¬(oneChunk.table[j].valid = true ∧ oneChunk.table[j].page = oneChunk.pageSize ∧
          oneChunk.table[j].oob = oneChunk.oobSize)) ∧
      oneChunk.pageSize.toNat ≠ 0 ∧ oneChunk.pageSize.toNat % 512 = 0 ∧
      ∀ ecc : Nat, (512 * 8 - 80) - (512 * 8 - 80) / (512 * 8 + ecc) * (512 * 8 + ecc) < 512 * 8 :=
  ⟨⟨rfl, rfl⟩, rfl, by decide, by decide, by decide, by decide, fun _ => Nat.lt_of_le_of_lt (Nat.sub_le _ _) (by decide)⟩

theorem witness_GeomNeedsTeardown : Ready afterGeom ∧ afterGeom.status.geomValid = true := ⟨afterGeom_ready, rfl⟩

/-- One error that enters the abort state, one that does not. Whether the third, `BlockMarkInEccRegion`, occurs depends on
the open parity function; `test_geom_vectors` shows it for the suggested one. -/
theorem witness_GeomTakesItsError :
    Ready State.reset ∧ State.reset.status.geomValid = false ∧
      computeGeometry Config.eccBits State.reset.pageSize State.reset.oobSize State.reset.cfg State.reset.table =
        .error .unsupportedGeometry ∧
      computeGeometry Config.eccBits 0 0 swapOn (tableWith 0 0 0 4) = .error .badOperand :=
  ⟨reset_ready, rfl, rfl, rfl⟩

theorem witness_AcceptedGeometryRelations :
    ∃ g, computeGeometry (fun _ s => 13 * s) 2048 128 swapOn (tableWith 0 2048 128 3) = .ok g := ⟨_, rfl⟩

theorem witness_GinvDiscardsGeometry : Ready afterGeom := afterGeom_ready

theorem witness_TsynBasicPath :
    Ready State.reset ∧ basicTarget.clkPeriodNs ≠ 0 ∧ basicTarget.known ≠ 0b111 := ⟨reset_ready, by decide, by decide⟩

theorem witness_TsynEyeAwarePath :
    Ready State.reset ∧ eyeTarget.clkPeriodNs ≠ 0 ∧ eyeTarget.known = 0b111 := ⟨reset_ready, by decide, by decide⟩

/-- The least clock period the invariant speaks of. -/
theorem witness_TsynClampInvariant :
    Ready ({ State.reset with target := { basicTarget with clkPeriodNs := 1 } } : State) ∧
      1 ≤ ({ State.reset with target := { basicTarget with clkPeriodNs := 1 } } : State).target.clkPeriodNs.toNat :=
  ⟨⟨rfl, rfl⟩, by decide⟩

theorem witness_TsynErrors :
    Ready State.reset ∧ State.reset.target.clkPeriodNs = 0 ∧
      Ready ({ State.reset with target := { basicTarget with clkPeriodNs := 1 } } : State) ∧
      ({ State.reset with target := { basicTarget with clkPeriodNs := 1 } } : State).target.clkPeriodNs ≠ 0 :=
  ⟨reset_ready, rfl, ⟨rfl, rfl⟩, by decide⟩

/-- Both buffers bounce and the PageBuffer holds both regions exactly. -/
def bounced : State := { beforeChain with dma := { beforeChain.dma with payloadLen := 2047, auxLen := 15 } }

theorem witness_DbrdBuildsReadChain :
    Ready bounced ∧ bounced.status.geomValid = true ∧ bounced.mem.wf = true ∧ bounced.dma.chainAddr.toNat % 4 = 0 ∧
      bounced.dma.payloadLen.toNat < bounced.geom.payloadSize.toNat ∧
      bounced.geom.payloadSize.toNat + bounced.geom.auxSize.toNat ≤ bounced.dma.pagebufLen.toNat :=
  ⟨⟨rfl, rfl⟩, rfl, rfl, by decide, by decide, by decide⟩

theorem witness_DbwrBuildsWriteChain :
    Ready beforeChain ∧ beforeChain.status.geomValid = true ∧ beforeChain.mem.wf = true ∧
      beforeChain.dma.chainAddr.toNat % 4 = 0 ∧
      ¬beforeChain.dma.payloadLen.toNat < beforeChain.geom.payloadSize.toNat ∧
      ¬beforeChain.dma.auxLen.toNat < beforeChain.geom.auxSize.toNat :=
  ⟨beforeChain_ready, rfl, rfl, by decide, by decide, by decide⟩

/-- A state for each of the three errors; the PageBuffer is one byte too small (vector D6). -/
theorem witness_BuilderErrorsInOrder :
    (Ready State.reset ∧ State.reset.status.geomValid = false) ∧
      (Ready ({ beforeChain with dma := { beforeChain.dma with chainAddr := 0x70000001 } } : State) ∧
        beforeChain.status.geomValid = true ∧ (0x70000001 : Word).toNat % 4 ≠ 0) ∧
      (Ready ({ bounced with dma := { bounced.dma with pagebufLen := 2063 } } : State) ∧
        bounced.status.geomValid = true ∧ bounced.dma.chainAddr.toNat % 4 = 0 ∧
        bounced.dma.auxLen.toNat < bounced.geom.auxSize.toNat ∧
        (2063 : Word).toNat < bounced.geom.payloadSize.toNat + bounced.geom.auxSize.toNat) :=
  ⟨⟨reset_ready, rfl⟩, ⟨⟨rfl, rfl⟩, rfl, by decide⟩, ⟨rfl, rfl⟩, rfl, by decide, by decide, by decide⟩

theorem witness_PwaitWaitsForLatches :
    (Ready afterGeom ∧ afterGeom.status.descValid = false) ∧ Ready afterChain ∧ afterChain.status.descValid = true :=
  ⟨⟨afterGeom_ready, rfl⟩, ⟨rfl, rfl⟩, rfl⟩

/-- A state for each clause: idle; the wait of a plain `PWAIT`; that of `PWAIT.E`, without and with the ECC latch; and
`WAIT_ECC`. -/
theorem witness_DmaDoneEvent :
    ({ afterChain with inputs := [.event .dmaDone] } : State).inputs = [.event .dmaDone] ∧
      afterChain.status.waitst = .idle ∧
      ({ inWait.status with waitE := false } : Status).waitst = .waitDma ∧
      ({ inWait.status with waitE := false } : Status).waitE = false ∧ inWait.status.waitst = .waitDma ∧
      inWait.status.waitE = true ∧ inWait.status.eccL = false ∧
      ({ inWait.status with eccL := true } : Status).waitE = true ∧
      ({ inWait.status with eccL := true } : Status).eccL = true ∧ inWaitEcc.status.waitst = .waitEcc ∧
      inWaitEcc.status.eccL = false := by
  decide

theorem witness_EccDoneEvent :
    ({ afterChain with inputs := [.event .eccDone] } : State).inputs = [.event .eccDone] ∧
      afterChain.status.waitst = .idle ∧ inWait.status.waitst = .waitDma ∧ inWait.status.dmaL = false ∧
      inWaitEcc.status.waitst = .waitEcc := by
  decide

theorem witness_TimeoutEndsItsWait :
    ({ inWait with inputs := [.event .dmaTimeout] } : State).inputs = [.event .dmaTimeout] ∧
      inWait.status.waitst = .waitDma ∧ afterChain.status.waitst ≠ .waitDma ∧
      ({ inWaitEcc with inputs := [.event .eccTimeout] } : State).inputs = [.event .eccTimeout] ∧
      inWaitEcc.status.waitst = .waitEcc ∧ inWait.status.waitst ≠ .waitEcc := by
  decide

theorem witness_CompletionOrderDoesNotMatter :
    inWait.status.waitst = .waitDma ∧ inWait.status.waitE = true ∧ inWait.status.dmaL = false ∧
      inWait.status.eccL = false := by
  decide

theorem witness_EaggSumsStatusBytes : Ready afterGeom ∧ afterGeom.status.geomValid = true := ⟨afterGeom_ready, rfl⟩

/-- Four erased bytes; and four bytes of which the last is uncorrectable and the others clean. -/
theorem witness_SentinelArrays :
    (∀ i, i < 4 → readByte (writeWord { cells := [] } 0x100 0xFFFFFFFF) (0x100 + BitVec.ofNat 32 i) = 0xFF) ∧
      (0xFE : Byte) ≠ 0xFF ∧ (0xFE : Byte) ≠ 0x00 ∧
      readByte (writeWord { cells := [] } 0x100 0xFE000000) (0x100 + BitVec.ofNat 32 3) = 0xFE ∧
      ∀ i, i < 4 → i ≠ 3 →
        readByte (writeWord { cells := [] } 0x100 0xFE000000) (0x100 + BitVec.ofNat 32 i) = 0x00 := by
  decide

/-- Bit offset 7, the greatest. -/
theorem witness_BswpSwapsMarkByte :
    Ready ({ beforeSwap with geom := { beforeSwap.geom with bmBitOff := 7 } } : State) ∧
      beforeSwap.status.geomValid = true ∧ beforeSwap.status.bmValid = true ∧ beforeSwap.mem.wf = true ∧
      (7 : Word).toNat < 8 :=
  ⟨⟨rfl, rfl⟩, rfl, rfl, by decide, by decide⟩

theorem witness_BswpTwiceRestores :
    Ready beforeSwap ∧ beforeSwap.status.geomValid = true ∧ beforeSwap.status.bmValid = true ∧
      beforeSwap.mem.wf = true ∧ beforeSwap.geom.bmBitOff.toNat < 8 ∧
      beforeSwap.ext.auxAddr ≠ beforeSwap.ext.payloadAddr + beforeSwap.geom.bmByteOff ∧
      beforeSwap.ext.auxAddr ≠ beforeSwap.ext.payloadAddr + beforeSwap.geom.bmByteOff + 1 :=
  ⟨⟨rfl, rfl⟩, rfl, rfl, by decide, by decide, by decide, by decide⟩

/-- No geometry; and a geometry without block-mark fields (vector B11). -/
theorem witness_ExtensionPreconditions :
    (Ready State.reset ∧ State.reset.status.geomValid = false) ∧
      Ready ({ afterGeom with status := { afterGeom.status with bmValid := false } } : State) ∧
      ({ afterGeom.status with bmValid := false } : Status).bmValid = false :=
  ⟨⟨reset_ready, rfl⟩, ⟨rfl, rfl⟩, rfl⟩

theorem witness_ClrfLeavesAbort : waiting aborted.status = false := rfl

theorem witness_NoInputNoChange : State.reset.inputs = [] := rfl

theorem witness_BusStoreChangesOneByte :
    ({ beforeSwap with inputs := [.busStore 0xFFFFFFFF 0] } : State).mem.wf = true ∧
      ({ beforeSwap with inputs := [.busStore 0xFFFFFFFF 0] } : State).inputs = [.busStore 0xFFFFFFFF 0] := by
  decide

/-- A state other than reset that meets the invariants and steps on. -/
theorem witness_StepKeepsInvariants :
    Inv { inWait with inputs := [.event .dmaDone] } ∧
      ∃ t, step { inWait with inputs := [.event .dmaDone] } = .next t :=
  ⟨⟨by decide, fun _ => afterGeom_relations, by decide, by decide, by decide, by decide, by decide, by decide, by decide,
      by decide⟩, _, rfl⟩

/-- A step that changes each of the four groups of results: `GINV`, `TSYN`, `DBRD`, and `EAGG` over no status byte. -/
theorem witness_ResultRegistersHaveOneWriter :
    (∃ t, step { afterGeom with inputs := [commandInput 0x02] } = .next t ∧ t.geom ≠ afterGeom.geom) ∧
      (∃ t, step { State.reset with target := basicTarget, limits := basicLimits, inputs := [commandInput 0x03] } =
        .next t ∧ t.timing ≠ State.reset.timing) ∧
      (∃ t, step { beforeChain with inputs := [commandInput 0x04] } = .next t ∧ t.chain ≠ beforeChain.chain) ∧
      ∃ t,
        step
            { afterGeom with
              geom := { afterGeom.geom with chunkCount := 0 }, agg := { failed := 1, corrected := 1 }
              inputs := [commandInput 0x07] } = .next t ∧
          t.agg ≠ { failed := 1, corrected := 1 } :=
  ⟨⟨_, rfl, by decide⟩, ⟨_, rfl, by decide⟩, ⟨_, rfl, by decide⟩, _, rfl, by decide⟩

/-- A step that changes bus space: `DBRD`, and another master's store. -/
theorem witness_BusSpaceHasFewWriters :
    (∃ t, step { beforeChain with inputs := [commandInput 0x04] } = .next t ∧ t.mem ≠ beforeChain.mem) ∧
      ∃ t, step (resetWithInputs [.busStore 0x10 1]) = .next t ∧ t.mem ≠ State.reset.mem :=
  ⟨⟨_, rfl, by decide⟩, _, rfl, by decide⟩

theorem witness_AbortEnteredByGeomLeftByClrf :
    (State.reset.status.abort = false ∧
        ∃ t, step (resetWithInputs [commandInput 0x01]) = .next t ∧ t.status.abort = true) ∧
      aborted.status.abort = true ∧
      ∃ t, step { aborted with inputs := [commandInput 0x09] } = .next t ∧ t.status.abort = false :=
  ⟨⟨rfl, _, rfl, rfl⟩, rfl, _, rfl, rfl⟩

theorem witness_WaitEnteredByPwaitLeftByEvents :
    (afterChain.status.waitst = .idle ∧
        ∃ t, step { afterChain with inputs := [commandInput 0x106] } = .next t ∧ t.status.waitst ≠ .idle) ∧
      inWaitEcc.status.waitst ≠ .idle ∧
      ∃ t, step { inWaitEcc with inputs := [.event .eccDone] } = .next t ∧ t.status.waitst = .idle :=
  ⟨⟨rfl, _, rfl, by decide⟩, by decide, _, rfl, rfl⟩

/-- A chain with the DMA latch set, and the next input `DBRD`. -/
def latched : State :=
  { afterChain with status := { afterChain.status with dmaL := true }, inputs := [commandInput 0x04] }

/-- A `PWAIT.E` in `WAIT_DMA` with the ECC latch set, and the next input `dma_done`. -/
def eccFirst : State := { inWait with status := { inWait.status with eccL := true }, inputs := [.event .dmaDone] }

/-- A chain, and the next input `dma_done`. -/
def dmaNext : State := { afterChain with inputs := [.event .dmaDone] }

/-- A chain, and the next input `ecc_done`. -/
def eccNext : State := { afterChain with inputs := [.event .eccDone] }

/-- Each clause: the two latches set by their events; cleared by `DBRD`; `ECC_L` cleared by a waited-for `dma_done`. -/
theorem witness_LatchDiscipline :
    (Inv dmaNext ∧ dmaNext.status.dmaL = false ∧ ∃ t, step dmaNext = .next t ∧ t.status.dmaL = true) ∧
      (Inv eccNext ∧ eccNext.status.eccL = false ∧ ∃ t, step eccNext = .next t ∧ t.status.eccL = true) ∧
      (Inv latched ∧ latched.status.dmaL = true ∧ ∃ t, step latched = .next t ∧ t.status.dmaL = false) ∧
      Inv eccFirst ∧ eccFirst.status.eccL = true ∧ ∃ t, step eccFirst = .next t ∧ t.status.eccL = false := by
  have inv : Inv dmaNext ∧ Inv eccNext ∧ Inv latched ∧ Inv eccFirst := by
    refine ⟨?_, ?_, ?_, ?_⟩ <;>
      exact ⟨by decide, fun _ => afterGeom_relations, by decide, by decide, by decide, by decide, by decide, by decide,
        by decide, by decide⟩
  exact ⟨⟨inv.1, rfl, _, rfl, rfl⟩, ⟨inv.2.1, rfl, _, rfl, rfl⟩, ⟨inv.2.2.1, rfl, _, rfl, rfl⟩, inv.2.2.2, rfl, _, rfl, rfl⟩

theorem witness_TotalsChangeOnlyByEaggAndHost :
    ∃ t, step (resetWithInputs [regWrite .sFailed 7]) = .next t ∧ t.sums ≠ State.reset.sums :=
  ⟨_, rfl, by decide⟩

theorem witness_BuildNeverChanges : ∃ t, step (resetWithInputs [.reset]) = .next t := ⟨_, rfl⟩

end Sys2Proof.Tests
end

section
/-! The statements about scope (00_scope.md R2, R15): every operation answers a next state, and no step changes the build.
Both go through one reading of `exec`: `CLRF` apart, an operation is a body behind the shared checks of `runCommand`. -/

namespace Sys2Proof.Machine

/-! ### The operations as bodies behind the shared checks -/

/-- What an operation does after the shared checks (30_encoding.md R83); `CLRF` makes none of them and has no body. -/
def commandBody : Instr → Option (State → Except ErrCode State)
  | .geom => some geomBody
  | .ginv => some ginvBody
  | .tsyn => some tsynBody
  | .dbrd => some dbrdBody
  | .dbwr => some dbwrBody
  | .pwait e => some (pwaitBody e)
  | .eagg => some eaggBody
  | .bswp => some bswpBody
  | .clrf => none

/-- `CLRF` is the one operation without a body, and the dispatcher runs every other one as its body behind the shared
checks. -/
theorem exec_eq_clrf_or_runCommand (i : Instr) (s : State) :
    (i = .clrf ∧ exec i s = .next (if waiting s.status then refuseAccess s else leaveAbort s)) ∨
      ∃ body, commandBody i = some body ∧ exec i s = runCommand (opByte i) body s := by
  cases i with
  | clrf => exact .inl ⟨rfl, rfl⟩
  | geom | ginv | tsyn | dbrd | dbwr | pwait | eagg | bswp => exact .inr ⟨_, rfl, rfl⟩

/-! ### Every operation answers a next state -/

theorem runCommand_answers_next (op : Byte) (body : State → Except ErrCode State) (s : State) :
    ∃ t, runCommand op body s = .next t := by
  unfold runCommand
  split
  case isTrue => exact ⟨_, rfl⟩
  case isFalse =>
    split
    case isTrue => exact ⟨_, rfl⟩
    case isFalse => split <;> exact ⟨_, rfl⟩

/-- Settles O12: `CLRF` answers at once, and every other operation is a `runCommand`. -/
theorem everyCommandEnds : Obligations.EveryCommandEnds := by
  intro i s
  obtain ⟨-, hclrf⟩ | ⟨body, -, hrun⟩ := exec_eq_clrf_or_runCommand i s
  · exact ⟨_, hclrf⟩
  · rw [hrun]
    exact runCommand_answers_next _ body s

/-! ### Nothing changes the build -/

/-- No operation's body changes the build. -/
theorem commandBody_build {i : Instr} {body : State → Except ErrCode State} {s u : State}
    (hbody : commandBody i = some body) (h : body s = .ok u) : u.build = s.build := by
  cases i <;> cases hbody
  case geom =>
    obtain ⟨-, g, -, rfl⟩ := geomBody_ok h
    simp
  case ginv =>
    cases h
    simp
  case tsyn =>
    obtain ⟨-, rfl⟩ := tsynBody_ok h
    simp
  case dbrd =>
    obtain ⟨b, -, rfl⟩ := dbrdBody_ok h
    simp
  case dbwr =>
    obtain ⟨b, -, rfl⟩ := dbwrBody_ok h
    simp
  case pwait e =>
    obtain ⟨-, rfl⟩ := pwaitBody_ok h
    simp
  case eagg =>
    obtain ⟨-, rfl⟩ := eaggBody_ok h
    simp
  case bswp =>
    obtain ⟨-, -, rfl⟩ := bswpBody_ok h
    rfl

/-- A command keeps the build when its body does: a refusal, an error entry and the success entry all keep it. -/
theorem runCommand_build {op : Byte} {body : State → Except ErrCode State} {s t : State}
    (hbody : ∀ u, body s = .ok u → u.build = s.build) (h : runCommand op body s = .next t) : t.build = s.build := by
  obtain ⟨-, rfl⟩ | ⟨-, -, rfl⟩ | ⟨-, -, u, hu, rfl⟩ | ⟨-, -, e, -, rfl⟩ := runCommand_cases h
  · exact refuseAccess_build s
  · exact takeError_build op _ s
  · rw [succeed_build, hbody u hu]
  · exact takeError_build op e s

theorem exec_build {i : Instr} {s t : State} (h : exec i s = .next t) : t.build = s.build := by
  obtain ⟨-, hclrf⟩ | ⟨body, hbody, hrun⟩ := exec_eq_clrf_or_runCommand i s
  · rw [hclrf] at h
    cases h
    split <;> simp
  · rw [hrun] at h
    exact runCommand_build (fun u => commandBody_build hbody) h

theorem hostRead_build {w : Width} {off : Word} {s t : State} (h : hostRead w off s = .next t) :
    t.build = s.build := by
  obtain rfl | ⟨r, -, rfl⟩ := hostRead_cases h
  · simp
  · rfl

@[simp] theorem writeReg_build (s : State) (v : Word) (r : Reg) : (writeReg s v r).build = s.build := by
  obtain ⟨-, -, -, -, -, -, -, hbuild, -⟩ := writeReg_frame s v r
  exact hbuild

theorem hostWrite_build {w : Width} {off data : Word} {s t : State} (h : hostWrite w off data s = .next t) :
    t.build = s.build := by
  obtain rfl | ⟨-, -, -, rfl⟩ | ⟨-, i, -, hexec⟩ | ⟨-, r, -, -, rfl⟩ := hostWrite_cases h
  · simp
  · rw [takeError_build, acceptWrite_build]
  · rw [exec_build hexec, acceptWrite_build]
  · simp

@[simp] theorem dmaDone_build (s : State) : (dmaDone s).build = s.build := by simp [dmaDone]

@[simp] theorem eccDone_build (s : State) : (eccDone s).build = s.build := by simp [eccDone]

theorem takeEvent_build {e : Event} {s t : State} (h : takeEvent e s = .next t) : t.build = s.build := by
  obtain ⟨-, rfl⟩ | ⟨-, rfl⟩ | ⟨-, -, rfl⟩ | ⟨-, -, rfl⟩ := takeEvent_cases h <;> simp

/-- No act of an agent changes the build, reset included. -/
theorem perform_build {a : Action} {s t : State} (h : perform a s = .next t) : t.build = s.build := by
  cases a with
  | read w off => exact hostRead_build h
  | write w off data => exact hostWrite_build h
  | event e => exact takeEvent_build h
  | busStore addr v =>
    cases h
    rfl
  | reset =>
    cases h
    exact resetBlock_build s

/-- Settles O51: a step does nothing or performs one act, and no act changes the build. -/
theorem buildNeverChanges : Obligations.BuildNeverChanges := by
  intro s t h
  obtain ⟨-, rfl⟩ | ⟨a, rest, -, hperform⟩ := step_cases h
  · rfl
  · have hkept : t.build = { s with inputs := rest }.build := perform_build hperform
    exact hkept

end Sys2Proof.Machine
end

section
/-! The invariants of 10_state.md R40. Each named update keeps them, so each act does. The one obstacle is `advance`: the
command or event before it breaks item 8 (a latch set in its own wait) and `advance` restores it. What holds in between is
the invariant of the state with both latches cleared, `unlatch`. -/

namespace Sys2Proof.Machine

/-! ### The reset state, and updates the invariants do not see -/

/-- Reset meets the invariants over any canonical bus space (10_state.md R38). -/
theorem resetWith_inv {mem : Memory} (build : Build) (inputs : List Action) (reply : Reply) (hmem : mem.wf = true) :
    Inv (State.resetWith mem build inputs reply) where
  noGeometry _ := ⟨rfl, rfl, rfl, rfl, rfl⟩
  geometry h := nomatch h
  markNeedsGeometry h := nomatch h
  waitNeedsChain h := absurd rfl h
  abortHasNoGeometry _ := rfl
  waitDmaUnlatched _ := rfl
  waitEccUnlatched h := nomatch h
  idleForgetsE _ := rfl
  errCode := List.mem_cons_self
  memWf := hmem

/-- Settles O43: the case of empty bus space. -/
theorem resetMeetsInvariants : Obligations.ResetMeetsInvariants :=
  resetWith_inv _ _ _ State.reset_mem_wf

/-- The invariants speak of `STATUS`, `ERR`, the geometry and bus space only. -/
theorem Inv.of_same_fields {s t : State} (h : Inv s) (hstatus : t.status = s.status) (herr : t.err = s.err)
    (hgeom : t.geom = s.geom) (hmem : t.mem = s.mem) : Inv t := by
  obtain ⟨_, _, _, _, _, _, _, _, _, _⟩ := h
  constructor <;> simpa only [hstatus, herr, hgeom, hmem]

theorem Inv.refuseAccess {s : State} (h : Inv s) : Inv (refuseAccess s) := h.of_same_fields rfl rfl rfl rfl

theorem Inv.acceptWrite {s : State} (h : Inv s) : Inv (acceptWrite s) := h.of_same_fields rfl rfl rfl rfl

theorem Inv.writeReg {s : State} (h : Inv s) (v : Word) (r : Reg) : Inv (writeReg s v r) := by
  obtain ⟨hstatus, herr, hgeom, -, -, -, hmem, -⟩ := writeReg_frame s v r
  exact h.of_same_fields hstatus herr hgeom hmem

/-- Bus space may be replaced by any canonical one. -/
theorem Inv.withMem {s : State} (h : Inv s) {m : Memory} (hm : m.wf = true) : Inv { s with mem := m } :=
  { h with memWf := hm }

theorem Inv.setErr {s : State} (h : Inv s) (op : Byte) {code : Byte} (hcode : code ∈ errCodes) :
    Inv (setErr op code s) :=
  { h with errCode := hcode }

theorem Inv.succeed {s : State} (h : Inv s) (op : Byte) : Inv (succeed op s) := h.setErr op (by decide)

/-! ### Latches apart: the wait state machine -/

/-- The state with both latches cleared. -/
def unlatch (s : State) : State := { s with status := { s.status with dmaL := false, eccL := false } }

@[simp] theorem unlatch_status (s : State) :
    (unlatch s).status = { s.status with dmaL := false, eccL := false } := rfl

/-- Clearing the latches keeps the invariants. -/
theorem Inv.unlatch {s : State} (h : Inv s) : Inv (unlatch s) :=
  { h with
    waitDmaUnlatched := fun _ => rfl
    waitEccUnlatched := fun hw => ⟨rfl, (h.waitEccUnlatched hw).2⟩ }

/-- The invariants hold of a state when they hold of it with the latches cleared and no latch stands in its own wait. -/
theorem Inv.of_unlatch {s : State} (h : Inv (Machine.unlatch s))
    (hdma : s.status.waitst = .waitDma → s.status.dmaL = false) (hecc : s.status.waitst = .waitEcc → s.status.eccL = false) : Inv s :=
  { h with
    waitDmaUnlatched := hdma
    waitEccUnlatched := fun hw => ⟨hecc hw, (h.waitEccUnlatched hw).2⟩ }

/-- The end of a wait meets the invariants whatever latches stand (42_pipeline.md R163). -/
theorem Inv.endWait {s : State} (h : Inv (Machine.unlatch s)) : Inv (endWait s) where
  noGeometry hv :=
    have ⟨hgeom, hbm, _, hagg, hreport⟩ := h.noGeometry hv
    ⟨hgeom, hbm, rfl, hagg, hreport⟩
  geometry := h.geometry
  markNeedsGeometry := h.markNeedsGeometry
  waitNeedsChain hw := absurd rfl hw
  abortHasNoGeometry := h.abortHasNoGeometry
  waitDmaUnlatched hw := absurd hw (by simp)
  waitEccUnlatched hw := absurd hw (by simp)
  idleForgetsE _ := rfl
  errCode := h.errCode
  memWf := h.memWf

theorem Inv.finishWait {s : State} (h : Inv (Machine.unlatch s)) : Inv (finishWait s) :=
  Inv.endWait (s := Machine.setErr 0x06 0 s) (h.setErr 0x06 (by decide))

/-- From `WAIT_DMA` with `WAIT_E` the wait may go on to `WAIT_ECC`, the latches cleared. -/
theorem Inv.toWaitEcc {s : State} (h : Inv (Machine.unlatch s)) (hw : s.status.waitst = .waitDma)
    (he : s.status.waitE = true) : Inv (Machine.unlatch { s with status := { s.status with waitst := .waitEcc } }) :=
  { h with
    waitNeedsChain := fun _ => h.waitNeedsChain (by simp [hw])
    waitDmaUnlatched := fun _ => rfl
    waitEccUnlatched := fun _ => ⟨rfl, he⟩
    idleForgetsE := fun hidle => absurd hidle (by simp) }

/-- `advance` makes the invariants hold again: it consumes the latch that stands in its own wait. -/
theorem Inv.advance {s : State} (h : Inv (Machine.unlatch s)) : Inv (advance s) := by
  rw [advance_eq]
  split
  case h_1 => exact Inv.finishWait (s := { s with status := { s.status with dmaL := false } }) h
  case h_2 hw _ he hecc => exact Inv.of_unlatch (Inv.toWaitEcc h hw he) (by simp) (fun _ => hecc)
  case h_3 hw _ he _ => exact Inv.finishWait (Inv.toWaitEcc h hw he)
  case h_4 => exact Inv.finishWait (s := { s with status := { s.status with eccL := false } }) h
  case h_5 hw hdma => exact h.of_unlatch (fun _ => hdma) (by simp [hw])
  case h_6 hw hecc => exact h.of_unlatch (by simp [hw]) (fun _ => hecc)
  case h_7 hw => exact h.of_unlatch (by simp [hw]) (by simp [hw])

end Sys2Proof.Machine
end

section
/-! The relations of a valid geometry (40_geometry.md R111), from the arithmetic of the layout: every stored value is below
`2^32`, so no register loses a bit of it. -/

namespace Sys2Proof.Machine

theorem chunkSizeOf_eq (c : Cfg) : chunkSizeOf c = 512 ∨ chunkSizeOf c = 1024 := by
  unfold chunkSizeOf
  cases c.chunk1k <;> simp

theorem toNat_toWord {n : Nat} (h : n < 2 ^ 32) : (toWord n).toNat = n := by
  rw [toWord, BitVec.toNat_ofNat, Nat.mod_eq_of_lt h]

/-- Where a block mark is found, its byte lies ten bytes or more before the end of the page: the mark's position in the
stream is the page less the metadata, and no parity bit is counted twice (40_geometry.md R106). -/
theorem blockMark_bounds {page csz ecc : Nat} {mark : Nat × Nat} (hpage : 10 ≤ page)
    (h : blockMark page csz ecc = some mark) : mark.1 + 10 ≤ page ∧ mark.2 < 8 := by
  simp only [blockMark, Option.ite_none_left_eq_some, Option.some.injEq] at h
  obtain ⟨-, rfl⟩ := h
  have hposition : markPosition page = page * 8 - 80 := rfl
  constructor
  · dsimp only
    omega
  · exact Nat.mod_lt _ (by omega)

/-- Items 1 to 3 of R111 hold of every layout whose chunks make up the page; items 4 and 5 are asked of the mark. -/
theorem layoutGeometry_relations {page csz : Nat} {strength : Word} {mark : Nat × Nat} {bm : Bool}
    (hcsz : csz = 512 ∨ csz = 1024) (hpos : 0 < page) (hlt : page < 2 ^ 32) (hmod : page % csz = 0)
    (hmark : bm = true → mark.1 + 10 ≤ page ∧ mark.2 < 8) (hnone : bm = false → mark = (0, 0)) :
    GeometryRelations (layoutGeometry page csz strength mark) bm := by
  have hcount : 1 ≤ page / csz ∧ page / csz < 2 ^ 23 ∧ page / csz * csz = page := by
    obtain rfl | rfl := hcsz <;> omega
  obtain ⟨hone, hsmall, hproduct⟩ := hcount
  have hpageWord : (toWord page).toNat = page := toNat_toWord hlt
  have hcountWord : (toWord (page / csz)).toNat = page / csz := toNat_toWord (by omega)
  have hcszWord : (toWord csz).toNat = csz := toNat_toWord (by omega)
  have hauxSize : (layoutGeometry page csz strength mark).auxSize.toNat = 12 + (page / csz + 3) / 4 * 4 :=
    toNat_toWord (n := 12 + (page / csz + 3) / 4 * 4) (by omega)
  constructor
  case chunks =>
    refine ⟨hcsz.imp (congrArg toWord) (congrArg toWord), ?_, ?_⟩ <;>
      simpa only [layoutGeometry, hpageWord, hcountWord, hcszWord]
  case metadata => exact ⟨rfl, rfl⟩
  case auxiliary =>
    have hoffset : (toWord auxStatusOffset).toNat = 12 := rfl
    rw [hauxSize]
    simp only [layoutGeometry, hcountWord, hoffset, true_and]
    omega
  case mark =>
    intro hbm
    obtain ⟨hbyte, hbit⟩ := hmark hbm
    have hbyteWord : (toWord mark.1).toNat = mark.1 := toNat_toWord (by omega)
    have hbitWord : (toWord mark.2).toNat = mark.2 := toNat_toWord (by omega)
    simp only [layoutGeometry, hpageWord, hbyteWord, hbitWord]
    omega
  case noMark =>
    intro hbm
    cases hnone hbm
    exact ⟨rfl, rfl⟩

/-- Every geometry that `GEOM` accepts meets R111 with the mark fields that `SWAP` asks for. -/
theorem computeGeometry_relations {ecc : Nat → Nat → Nat} {page oob : Word} {c : Cfg}
    {t : Vector TableEntry Config.nTable} {g : Geometry} (h : computeGeometry ecc page oob c t = .ok g) :
    GeometryRelations g c.swap := by
  obtain ⟨strength, -, hpage, hmod, hmark⟩ := computeGeometry_ok h
  have hcsz : chunkSizeOf c = 512 ∨ chunkSizeOf c = 1024 := chunkSizeOf_eq c
  have hpos : 0 < page.toNat := Nat.pos_of_ne_zero fun h0 => hpage (BitVec.eq_of_toNat_eq h0)
  obtain ⟨hswap, mark, hmark, rfl⟩ | ⟨hswap, rfl⟩ := hmark
  · have hten : 10 ≤ page.toNat := by obtain hcsz | hcsz := hcsz <;> rw [hcsz] at hmod <;> omega
    have hbounds : mark.1 + 10 ≤ page.toNat ∧ mark.2 < 8 := blockMark_bounds hten hmark
    exact layoutGeometry_relations hcsz hpos page.isLt hmod (fun _ => hbounds) (by simp [hswap])
  · exact layoutGeometry_relations hcsz hpos page.isLt hmod (by simp [hswap]) (fun _ => rfl)

end Sys2Proof.Machine
end

section
/-! Every step keeps the invariants: every operation's body does, so every command does, so every act does. -/

namespace Sys2Proof.Machine

/-! ### Operations -/

/-- Error entry keeps the invariants; the two errors that set `ABORT` must find no geometry and no wait. -/
theorem Inv.takeError {s : State} (h : Inv s) (op : Byte) {e : ErrCode}
    (habort : e = .unsupportedGeometry ∨ e = .blockMarkInEccRegion →
      s.status.geomValid = false ∧ s.status.waitst = .idle) :
    Inv (takeError op e s) := by
  have hcode : errNumber e ∈ errCodes := by cases e <;> decide
  have hwritten : Inv (Machine.setErr op (errNumber e) s) := h.setErr op hcode
  cases e with
  | unsupportedGeometry | blockMarkInEccRegion =>
    obtain ⟨hvalid, hidle⟩ := habort (by simp)
    exact { hwritten with
      waitNeedsChain := fun hw => absurd hidle hw
      abortHasNoGeometry := fun _ => hvalid }
  | dmaTimeout | eccTimeout => exact Inv.endWait hwritten.unlatch
  | inadequateDmaBuffer | illegalCommand | illegalSequence | badOperand => exact hwritten

/-- The two errors that set `ABORT` are `GEOM`'s, raised where there is no geometry. -/
theorem commandBody_abortError {i : Instr} {body : State → Except ErrCode State} {s : State} {e : ErrCode}
    (hbody : commandBody i = some body) (h : body s = .error e)
    (habort : e = .unsupportedGeometry ∨ e = .blockMarkInEccRegion) : i = .geom ∧ s.status.geomValid = false := by
  have hbuilder (hb : builderChecks s = .error e) : False := by
    obtain ⟨-, rfl⟩ | ⟨-, -, rfl⟩ | ⟨-, -, -, rfl⟩ := builderChecks_error hb <;> simp at habort
  cases i <;> cases hbody
  case geom =>
    obtain ⟨-, rfl⟩ | ⟨hvalid, -⟩ := geomBody_error h
    · simp at habort
    · exact ⟨rfl, hvalid⟩
  case ginv => cases h
  case tsyn =>
    obtain ⟨-, rfl⟩ := tsynBody_error h
    simp at habort
  case dbrd => exact (hbuilder (dbrdBody_error h)).elim
  case dbwr => exact (hbuilder (dbwrBody_error h)).elim
  case pwait =>
    obtain ⟨-, rfl⟩ := pwaitBody_error h
    simp at habort
  case eagg =>
    obtain ⟨-, rfl⟩ := eaggBody_error h
    simp at habort
  case bswp =>
    obtain ⟨-, rfl⟩ := bswpBody_error h
    simp at habort

theorem Inv.latchGeometry {s : State} (h : Inv s) {g : Geometry} (hidle : s.status.waitst = .idle)
    (habort : s.status.abort = false) (hg : GeometryRelations g s.cfg.swap) : Inv (latchGeometry g s) :=
  { h with
    noGeometry := fun hv => nomatch hv
    geometry := fun _ => hg
    markNeedsGeometry := fun _ => rfl
    waitNeedsChain := fun hw => absurd hidle hw
    abortHasNoGeometry := fun ha => absurd (habort.symm.trans ha) (by decide) }

theorem Inv.discardGeometry {s : State} (h : Inv s) (hidle : s.status.waitst = .idle) : Inv (discardGeometry s) :=
  { h with
    noGeometry := fun _ => ⟨rfl, rfl, rfl, rfl, rfl⟩
    geometry := fun hv => nomatch hv
    markNeedsGeometry := fun hv => nomatch hv
    waitNeedsChain := fun hw => absurd hidle hw
    abortHasNoGeometry := fun _ => rfl }

theorem Inv.latchTiming {s : State} (h : Inv s) : Inv (latchTiming s) := { h with }

theorem Inv.latchChain {s : State} (h : Inv s) (isWrite : Bool) (ds : List Descriptor) (b : Buffers)
    (hidle : s.status.waitst = .idle) (hvalid : s.status.geomValid = true) : Inv (latchChain isWrite ds b s) :=
  { h with
    noGeometry := fun hv => absurd (hvalid.symm.trans hv) (by decide)
    waitNeedsChain := fun hw => absurd hidle hw
    waitDmaUnlatched := fun _ => rfl
    waitEccUnlatched := fun hw => absurd (hidle.symm.trans hw) (by decide)
    memWf := Memory.wf_writeWords _ _ h.memWf }

theorem Inv.latchAggregate {s : State} (h : Inv s) (failed corrected : Nat) (hvalid : s.status.geomValid = true) :
    Inv (latchAggregate failed corrected s) :=
  { h with noGeometry := fun hv => absurd (hvalid.symm.trans hv) (by decide) }

/-- Entering a wait keeps the invariants, latches apart. -/
theorem Inv.enterWait {s : State} (h : Inv s) (e : Bool) (habort : s.status.abort = false)
    (hchain : s.status.descValid = true) : Inv (Machine.unlatch (enterWait e s)) :=
  { h with
    waitNeedsChain := fun _ => ⟨hchain, habort⟩
    waitDmaUnlatched := fun _ => rfl
    waitEccUnlatched := fun hw => absurd hw (by simp)
    idleForgetsE := fun hw => absurd hw (by simp) }

/-- Every operation's body keeps the invariants in the states where commands are accepted. -/
theorem commandBody_inv {i : Instr} {body : State → Except ErrCode State} {s u : State} (hinv : Inv s)
    (hidle : s.status.waitst = .idle) (habort : s.status.abort = false) (hbody : commandBody i = some body)
    (h : body s = .ok u) : Inv u := by
  cases i <;> cases hbody
  case geom =>
    obtain ⟨-, g, hg, rfl⟩ := geomBody_ok h
    exact hinv.latchGeometry hidle habort (computeGeometry_relations hg)
  case ginv =>
    cases h
    exact hinv.discardGeometry hidle
  case tsyn =>
    obtain ⟨-, rfl⟩ := tsynBody_ok h
    exact hinv.latchTiming
  case dbrd =>
    obtain ⟨b, hb, rfl⟩ := dbrdBody_ok h
    obtain ⟨hvalid, -, -⟩ := builderChecks_ok hb
    exact hinv.latchChain _ _ _ hidle hvalid
  case dbwr =>
    obtain ⟨b, hb, rfl⟩ := dbwrBody_ok h
    obtain ⟨hvalid, -, -⟩ := builderChecks_ok hb
    exact hinv.latchChain _ _ _ hidle hvalid
  case pwait e =>
    obtain ⟨hchain, rfl⟩ := pwaitBody_ok h
    exact Inv.advance (hinv.enterWait e habort hchain)
  case eagg =>
    obtain ⟨hvalid, rfl⟩ := eaggBody_ok h
    exact hinv.latchAggregate _ _ hvalid
  case bswp =>
    obtain ⟨-, -, rfl⟩ := bswpBody_ok h
    exact hinv.withMem (Memory.wf_swapMark _ _ _ hinv.memWf)

theorem Inv.leaveAbort {s : State} (h : Inv s) : Inv (leaveAbort s) :=
  { h.setErr 0 (code := 0) (by decide) with
    waitNeedsChain := fun hw => ⟨(h.waitNeedsChain hw).1, rfl⟩
    abortHasNoGeometry := fun ha => nomatch ha }

/-- Every operation keeps the invariants. -/
theorem exec_inv {i : Instr} {s t : State} (hinv : Inv s) (h : exec i s = .next t) : Inv t := by
  obtain ⟨-, hclrf⟩ | ⟨body, hbody, hrun⟩ := exec_eq_clrf_or_runCommand i s
  · rw [hclrf] at h
    cases h
    split
    · exact hinv.refuseAccess
    · exact hinv.leaveAbort
  · rw [hrun] at h
    obtain ⟨-, rfl⟩ | ⟨-, -, rfl⟩ | ⟨hw, ha, u, hu, rfl⟩ | ⟨hw, -, e, he, rfl⟩ := runCommand_cases h
    · exact hinv.refuseAccess
    · exact hinv.takeError _ (by simp)
    · exact (commandBody_inv hinv ((waiting_eq_false_iff _).1 hw) ha hbody hu).succeed _
    · exact hinv.takeError _ fun habort =>
        ⟨(commandBody_abortError hbody he habort).2, (waiting_eq_false_iff _).1 hw⟩

/-! ### Acts -/

theorem hostRead_inv {w : Width} {off : Word} {s t : State} (hinv : Inv s) (h : hostRead w off s = .next t) :
    Inv t := by
  obtain rfl | ⟨r, -, rfl⟩ := hostRead_cases h
  · exact hinv.refuseAccess
  · exact hinv.of_same_fields rfl rfl rfl rfl

theorem hostWrite_inv {w : Width} {off data : Word} {s t : State} (hinv : Inv s)
    (h : hostWrite w off data s = .next t) : Inv t := by
  obtain rfl | ⟨-, -, -, rfl⟩ | ⟨-, i, -, hexec⟩ | ⟨-, r, -, -, rfl⟩ := hostWrite_cases h
  · exact hinv.refuseAccess
  · exact hinv.acceptWrite.takeError _ (by simp)
  · exact exec_inv hinv.acceptWrite hexec
  · exact hinv.acceptWrite.writeReg data r

/-- A completion sets a latch, which `unlatch` does not see, and advances. -/
theorem takeEvent_inv {e : Event} {s t : State} (hinv : Inv s) (h : takeEvent e s = .next t) : Inv t := by
  obtain ⟨-, rfl⟩ | ⟨-, rfl⟩ | ⟨-, -, rfl⟩ | ⟨-, -, rfl⟩ := takeEvent_cases h
  · exact Inv.advance (s := { s with status := { s.status with dmaL := true } }) hinv.unlatch
  · exact Inv.advance (s := { s with status := { s.status with eccL := true } }) hinv.unlatch
  · exact hinv.takeError _ (by simp)
  · exact hinv.takeError _ (by simp)

theorem perform_inv {a : Action} {s t : State} (hinv : Inv s) (h : perform a s = .next t) : Inv t := by
  cases a with
  | read w off => exact hostRead_inv hinv h
  | write w off data => exact hostWrite_inv hinv h
  | event e => exact takeEvent_inv hinv h
  | busStore addr v =>
    cases h
    exact hinv.withMem (Memory.wf_writeByte addr v hinv.memWf)
  | reset =>
    cases h
    exact resetWith_inv _ _ _ hinv.memWf

/-- Settles O44: a step does nothing or performs one act, and every act keeps the invariants. -/
theorem stepKeepsInvariants : Obligations.StepKeepsInvariants := by
  intro s t hinv h
  obtain ⟨-, rfl⟩ | ⟨a, rest, -, hperform⟩ := step_cases h
  · exact hinv
  · have htaken : Inv { s with inputs := rest } := hinv.of_same_fields rfl rfl rfl rfl
    exact perform_inv htaken hperform

end Sys2Proof.Machine
end

section
/-! The register map (10_state.md R22): the map from registers to offsets and the map back undo each other, so each lists
what the other does. -/

namespace Sys2Proof.Machine

/-- A word of the table stands at the offset that selects it (10_state.md R22, R28). -/
theorem regOffset_of_tableRegAt {off : Nat} {r : Reg} (hlow : 0x100 ≤ off) (hhigh : off < 0x180)
    (h : tableRegAt off = some r) : regOffset r = off := by
  have hentry : (off - 0x100) / 16 % 8 = (off - 0x100) / 16 := by omega
  unfold tableRegAt at h
  split at h <;> cases h <;> simp only [regOffset, Fin.val_ofNat, hentry] <;> omega

theorem regOffset_of_regAt {off : Nat} {r : Reg} (h : regAt off = some r) : regOffset r = off := by
  unfold regAt at h
  split at h
  case h_54 =>
    obtain ⟨⟨hlow, hhigh⟩, htable⟩ := Option.ite_none_right_eq_some.1 h
    exact regOffset_of_tableRegAt hlow hhigh htable
  all_goals
    cases h
    rfl

theorem regAt_regOffset (r : Reg) : regAt (regOffset r) = some r := by
  cases r
  case tblPage i | tblOob i | tblStrength i | tblCtrl i => revert i; decide
  all_goals rfl

theorem regOffset_aligned (r : Reg) : regOffset r % 4 = 0 ∧ regOffset r < 0x180 := by
  cases r
  case tblPage i | tblOob i | tblStrength i | tblCtrl i =>
    simp only [regOffset]
    omega
  all_goals decide

/-- Settles O8: the rows and the table entries by evaluation, the map back by the two round trips. -/
theorem registerMapIsOneToOne : Obligations.RegisterMapIsOneToOne := by
  refine ⟨?_, fun i => ⟨⟨rfl, rfl⟩, ⟨rfl, rfl⟩, ⟨rfl, rfl⟩, rfl, rfl⟩, fun r => ⟨regAt_regOffset r, regOffset_aligned r⟩,
    fun off r => regOffset_of_regAt⟩
  intro row hrow
  suffices h : regOffset row.2.1 = row.1 ∧ regAccess row.2.1 = row.2.2 from
    ⟨h.1, h.1 ▸ regAt_regOffset row.2.1, h.2⟩
  revert row
  decide

end Sys2Proof.Machine
end

section
/-! What each register reads (10_state.md R23 to R36): the fields of a word made of fields stand where the concatenation
puts them, and a kept part of a word reads as itself below zeros. -/

namespace Sys2Proof.Machine

/-! ### `STATUS` and `ERR` -/

theorem statusWord_waitst (st : Status) : (statusWord st).extractLsb' 8 2 = waitBits st.waitst := by
  simp (disch := decide) only [statusWord, BitVec.extractLsb'_append_eq_of_le, BitVec.extractLsb'_append_eq_of_add_le]
  exact BitVec.extractLsb'_eq_self

theorem statusWord_reserved (st : Status) : (statusWord st).extractLsb' 16 16 = 0 := by
  simp (disch := decide) only [statusWord, BitVec.extractLsb'_append_eq_of_le]
  rfl

theorem errWord_fields (e : ErrReg) :
    (errWord e).extractLsb' 0 8 = e.code ∧ (errWord e).extractLsb' 8 8 = e.op ∧ (errWord e).extractLsb' 16 16 = 0 := by
  simp (disch := decide) only [errWord, BitVec.extractLsb'_append_eq_of_le, BitVec.extractLsb'_append_eq_of_add_le]
  exact ⟨BitVec.extractLsb'_eq_self, BitVec.extractLsb'_eq_self, rfl⟩

/-- Settles O10: a flag is a bit of the concatenation; `WAITST`, the fields of `ERR` and the reserved parts are slices. -/
theorem statusAndErrFieldsAtTheirBits : Obligations.StatusAndErrFieldsAtTheirBits := by
  intro s
  refine ⟨⟨?_, ?_, ?_, ?_, ?_, ?_, ?_, ?_, (statusWord_waitst s.status).trans ?wait, ?_, ?_, ?_, ?_, ?_, ?_,
    statusWord_reserved s.status⟩, errWord_fields s.err⟩
  case wait => cases s.status.waitst <;> rfl
  all_goals
    simp only [readReg, statusWord, BitVec.getLsbD_append]
    simp

/-! ### Kept parts of a word -/

theorem cfgWord_fields (c : Cfg) :
    (cfgWord c).getLsbD 0 = c.swap ∧ (cfgWord c).getLsbD 1 = c.chunk1k ∧ (cfgWord c).getLsbD 2 = c.bus16 ∧
      (cfgWord c).extractLsb' 3 29 = 0 := by
  simp (disch := decide) only [cfgWord, BitVec.getLsbD_append, BitVec.extractLsb'_append_eq_of_le]
  simp

/-- A kept part reads as itself in the low bits. -/
theorem extractLsb'_setWidth_kept {w : Nat} (x : BitVec w) (hw : w ≤ 32) : (x.setWidth 32).extractLsb' 0 w = x := by
  rw [BitVec.extractLsb'_setWidth_of_le (by omega), BitVec.extractLsb'_eq_self]

/-- The reserved bits above a kept part read 0. -/
theorem extractLsb'_setWidth_reserved {w : Nat} (x : BitVec w) (n : Nat) : (x.setWidth 32).extractLsb' w n = 0 := by
  ext i hi
  simp

/-- Settles O52: most registers read a field as it is, the others a concatenation or an extended field. -/
theorem registersReadTheirFields : Obligations.RegistersReadTheirFields := by
  intro s
  have hflag (b : Bool) : ((BitVec.ofBool b).setWidth 32).getLsbD 0 = b := by cases b <;> rfl
  exact ⟨⟨rfl, rfl, rfl⟩, cfgWord_fields s.cfg, ⟨rfl, rfl, rfl, rfl, rfl, rfl, rfl, rfl, rfl⟩,
    ⟨rfl, rfl, rfl, rfl, rfl, rfl, rfl, rfl, extractLsb'_setWidth_kept _ (by decide), extractLsb'_setWidth_reserved _ _⟩,
    ⟨rfl, rfl, rfl, rfl, rfl, rfl, rfl⟩,
    ⟨rfl, rfl, rfl, rfl, hflag _, extractLsb'_setWidth_reserved _ _⟩,
    ⟨rfl, rfl, rfl, rfl, rfl, rfl, rfl, rfl, rfl, rfl, extractLsb'_setWidth_kept _ (by decide),
      extractLsb'_setWidth_reserved _ _⟩,
    ⟨rfl, rfl, rfl, rfl, rfl, rfl⟩, fun i => ⟨rfl, rfl, rfl, hflag _, extractLsb'_setWidth_reserved _ _⟩⟩

/-! ### Reset -/

/-- Every register of a state fresh from reset reads 0 (10_state.md R38). -/
theorem readReg_resetWith (mem : Memory) (build : Build) (inputs : List Action) (reply : Reply) (r : Reg) :
    readReg (State.resetWith mem build inputs reply) r = 0 := by
  cases r
  case tblPage i | tblOob i | tblStrength i | tblCtrl i =>
    have hentry : (State.resetWith mem build inputs reply).table[i] = TableEntry.reset := by
      simp [State.resetWith]
    rw [readReg, hentry]
    rfl
  case status =>
    have hword : statusWord Status.reset = 0 := by decide
    exact hword
  case err =>
    have hword : errWord { op := 0, code := 0 } = 0 := by decide
    exact hword
  case cfg =>
    have hword : cfgWord { swap := false, chunk1k := false, bus16 := false } = 0 := by decide
    exact hword
  all_goals rfl

/-- Settles O11: the step performs the reset, which keeps bus space and leaves every register at its reset value. -/
theorem resetReadsZero : Obligations.ResetReadsZero := by
  refine ⟨readReg_resetWith _ _ _ _, fun s rest hinputs => ?_⟩
  have hstep : step s = .next (resetBlock { s with inputs := rest }) := by
    simp [step, takeInput, hinputs, perform]
  exact ⟨_, hstep, readReg_resetWith _ _ _ _, resetBlock_mem _⟩

end Sys2Proof.Machine
end

section
/-! Which input writes which part of the state. One reading of the step serves the statements about writers: it runs an
operation whose word the host wrote to `CMD`, takes an event, resets, or touches neither `STATUS` nor a result. -/

namespace Sys2Proof.Machine

/-! ### The word of a command -/

/-- A word is its three fields one above the other (30_encoding.md R80). -/
theorem word_eq_fields (w : Word) : zeroField w ++ BitVec.ofBool (eField w) ++ opField w = w := by
  refine BitVec.eq_of_getLsbD_eq fun i hi => ?_
  simp only [BitVec.getLsbD_append, zeroField, eField, opField, BitVec.getLsbD_extractLsb', BitVec.getLsbD_ofBool]
  by_cases hop : i < 8
  · simp [hop]
  by_cases he : i = 8
  · simp [he]
  · have hhigh : i - 8 - 1 < 23 ∧ 9 + (i - 8 - 1) = i := by omega
    simp [hop, hhigh, show ¬ i - 8 < 1 by omega]

/-- A row of the opcode map fixes `OP`, and `E` except in the row of `PWAIT` (30_encoding.md R81). -/
theorem fields_of_decodeOp {e : Bool} {n : Nat} {i : Instr} (h : decodeOp e n = some i) :
    (opByte i).toNat = n ∧ (n = 6 → eBit i = e) ∧ (n ≠ 6 → eBit i = false) := by
  unfold decodeOp at h
  split at h <;> cases h <;> simp [opByte, eBit]

/-- The decoder accepts the encoding of an operation only (30_encoding.md R82). -/
theorem eq_encode_of_decodeWord {b : Build} {w : Word} {i : Instr} (h : decodeWord b w = .ok i) : w = encode i := by
  unfold decodeWord at h
  split at h
  case isTrue => cases h
  case isFalse hzero =>
    split at h
    case h_1 => cases h
    case h_2 j hj =>
      split at h
      case isTrue => cases h
      case isFalse hstray =>
        split at h
        case isFalse => cases h
        case isTrue =>
          cases h
          obtain ⟨hop, hsix, hother⟩ := fields_of_decodeOp hj
          have hop : opField w = opByte i := (BitVec.eq_of_toNat_eq hop).symm
          have he : eField w = eBit i := by
            by_cases h6 : opField w = 0x06
            · exact (hsix (congrArg BitVec.toNat h6)).symm
            · rw [hother fun h => h6 (BitVec.eq_of_toNat_eq h)]
              exact Bool.eq_false_iff.2 fun he => hstray ⟨he, h6⟩
          rw [← word_eq_fields w, not_not.1 hzero, he, hop, encode]

/-- `CMD` is reached by a 32-bit access to offset 0 only (10_state.md R22, 20_memory.md R62). -/
theorem eq_of_accessedReg_cmd {w : Width} {off : Word} (h : accessedReg w off = some .cmd) : w = .w32 ∧ off = 0 := by
  cases w
  case w32 => exact ⟨rfl, BitVec.eq_of_toNat_eq (regOffset_of_regAt h).symm⟩
  all_goals cases h

/-! ### What a step does -/

/-- The state with its first input taken away. -/
def dropInput (s : State) : State := { s with inputs := s.inputs.tail }

/-- `STATUS` and the four groups of results are those of the other state. -/
structure SameStatusAndResults (s t : State) : Prop where
  status : t.status = s.status
  geom : t.geom = s.geom
  timing : t.timing = s.timing
  chain : t.chain = s.chain
  agg : t.agg = s.agg

/-- Everything a step can do to `STATUS` and the results, with the input that does it. -/
theorem step_writers {s t : State} (h : step s = .next t) :
    (∃ i, s.inputs.head? = some (commandInput (encode i)) ∧ exec i (acceptWrite (dropInput s)) = .next t) ∨
      (∃ e, s.inputs.head? = some (.event e) ∧ takeEvent e (dropInput s) = .next t) ∨
      (s.inputs.head? = some .reset ∧ t = resetBlock (dropInput s)) ∨ SameStatusAndResults s t := by
  obtain ⟨-, rfl⟩ | ⟨a, rest, hinputs, hperform⟩ := step_cases h
  · exact .inr (.inr (.inr ⟨rfl, rfl, rfl, rfl, rfl⟩))
  have hhead : s.inputs.head? = some a := by rw [hinputs, List.head?_cons]
  have hdrop : { s with inputs := rest } = dropInput s := by rw [dropInput, hinputs, List.tail_cons]
  rw [hdrop] at hperform
  cases a with
  | read w off =>
    obtain rfl | ⟨r, -, rfl⟩ := hostRead_cases hperform <;> exact .inr (.inr (.inr ⟨rfl, rfl, rfl, rfl, rfl⟩))
  | write w off data =>
    obtain rfl | ⟨-, -, -, rfl⟩ | ⟨hcmd, i, hdecode, hexec⟩ | ⟨-, r, -, -, rfl⟩ := hostWrite_cases hperform
    · exact .inr (.inr (.inr ⟨rfl, rfl, rfl, rfl, rfl⟩))
    · exact .inr (.inr (.inr ⟨rfl, rfl, rfl, rfl, rfl⟩))
    · obtain ⟨rfl, rfl⟩ := eq_of_accessedReg_cmd hcmd
      obtain rfl := eq_encode_of_decodeWord hdecode
      exact .inl ⟨i, hhead, hexec⟩
    · obtain ⟨hstatus, -, hgeom, htiming, hchain, hagg, -⟩ := writeReg_frame (acceptWrite (dropInput s)) data r
      exact .inr (.inr (.inr ⟨hstatus, hgeom, htiming, hchain, hagg⟩))
  | event e => exact .inr (.inl ⟨e, hhead, hperform⟩)
  | busStore addr v =>
    cases hperform
    exact .inr (.inr (.inr ⟨rfl, rfl, rfl, rfl, rfl⟩))
  | reset =>
    cases hperform
    exact .inr (.inr (.inl ⟨hhead, rfl⟩))

/-! ### Results -/

/-- Which operation changes which group of results (10_state.md R29, R32, R34, R36). -/
structure ResultsWrittenBy (i : Instr) (s t : State) : Prop where
  geom : t.geom = s.geom ∨ i = .geom ∨ i = .ginv
  timing : t.timing = s.timing ∨ i = .tsyn
  chain : t.chain = s.chain ∨ i = .dbrd ∨ i = .dbwr
  agg : t.agg = s.agg ∨ i = .eagg

theorem ResultsWrittenBy.of_same {i : Instr} {s t : State} (hgeom : t.geom = s.geom) (htiming : t.timing = s.timing)
    (hchain : t.chain = s.chain) (hagg : t.agg = s.agg) : ResultsWrittenBy i s t :=
  ⟨.inl hgeom, .inl htiming, .inl hchain, .inl hagg⟩

@[simp] theorem takeError_timing (op : Byte) (e : ErrCode) (s : State) : (takeError op e s).timing = s.timing := by
  cases e <;> rfl

@[simp] theorem takeError_chain (op : Byte) (e : ErrCode) (s : State) : (takeError op e s).chain = s.chain := by
  cases e <;> rfl

@[simp] theorem takeError_agg (op : Byte) (e : ErrCode) (s : State) : (takeError op e s).agg = s.agg := by
  cases e <;> rfl

@[simp] theorem advance_timing (s : State) : (advance s).timing = s.timing := by rw [advance_frame]

@[simp] theorem advance_chain (s : State) : (advance s).chain = s.chain := by rw [advance_frame]

@[simp] theorem advance_agg (s : State) : (advance s).agg = s.agg := by rw [advance_frame]

/-- Each operation's body writes its own group of results only. -/
theorem commandBody_results {i : Instr} {body : State → Except ErrCode State} {s u : State}
    (hbody : commandBody i = some body) (h : body s = .ok u) : ResultsWrittenBy i s u := by
  cases i <;> cases hbody
  case geom =>
    obtain ⟨-, g, -, rfl⟩ := geomBody_ok h
    exact ⟨.inr (.inl rfl), .inl rfl, .inl rfl, .inl rfl⟩
  case ginv =>
    cases h
    exact ⟨.inr (.inr rfl), .inl rfl, .inl rfl, .inl rfl⟩
  case tsyn =>
    obtain ⟨-, rfl⟩ := tsynBody_ok h
    exact ⟨.inl rfl, .inr rfl, .inl rfl, .inl rfl⟩
  case dbrd =>
    obtain ⟨b, -, rfl⟩ := dbrdBody_ok h
    exact ⟨.inl rfl, .inl rfl, .inr (.inl rfl), .inl rfl⟩
  case dbwr =>
    obtain ⟨b, -, rfl⟩ := dbwrBody_ok h
    exact ⟨.inl rfl, .inl rfl, .inr (.inr rfl), .inl rfl⟩
  case pwait e =>
    obtain ⟨-, rfl⟩ := pwaitBody_ok h
    exact .of_same (by simp) (by simp) (by simp) (by simp)
  case eagg =>
    obtain ⟨-, rfl⟩ := eaggBody_ok h
    exact ⟨.inl rfl, .inl rfl, .inl rfl, .inr rfl⟩
  case bswp =>
    obtain ⟨-, -, rfl⟩ := bswpBody_ok h
    exact .of_same rfl rfl rfl rfl

theorem exec_results {i : Instr} {s t : State} (h : exec i s = .next t) : ResultsWrittenBy i s t := by
  obtain ⟨-, hclrf⟩ | ⟨body, hbody, hrun⟩ := exec_eq_clrf_or_runCommand i s
  · rw [hclrf] at h
    cases h
    split <;> exact .of_same rfl rfl rfl rfl
  · rw [hrun] at h
    obtain ⟨-, rfl⟩ | ⟨-, -, rfl⟩ | ⟨-, -, u, hu, rfl⟩ | ⟨-, -, e, -, rfl⟩ := runCommand_cases h
    · exact .of_same rfl rfl rfl rfl
    · exact .of_same rfl rfl rfl rfl
    · obtain ⟨hgeom, htiming, hchain, hagg⟩ := commandBody_results hbody hu
      exact ⟨hgeom, htiming, hchain, hagg⟩
    · exact .of_same (by simp) (by simp) (by simp) (by simp)

/-- No event changes a result. -/
theorem takeEvent_results {e : Event} {s t : State} (h : takeEvent e s = .next t) :
    t.geom = s.geom ∧ t.timing = s.timing ∧ t.chain = s.chain ∧ t.agg = s.agg := by
  obtain ⟨-, rfl⟩ | ⟨-, rfl⟩ | ⟨-, -, rfl⟩ | ⟨-, -, rfl⟩ := takeEvent_cases h <;> simp [dmaDone, eccDone]

/-- Settles O45: of the acts other than reset only operations change results, and each changes its own group. -/
theorem resultRegistersHaveOneWriter : Obligations.ResultRegistersHaveOneWriter := by
  intro s t h hreset
  obtain ⟨i, hhead, hexec⟩ | ⟨e, -, hevent⟩ | ⟨hhead, -⟩ | ⟨-, hgeom, htiming, hchain, hagg⟩ := step_writers h
  · obtain ⟨hgeom, htiming, hchain, hagg⟩ := exec_results hexec
    rw [hhead]
    refine ⟨fun hne => ?_, fun hne => ?_, fun hne => ?_, fun hne => ?_⟩
    · obtain rfl | rfl := hgeom.resolve_left hne
      · exact .inl rfl
      · exact .inr rfl
    · obtain rfl := htiming.resolve_left hne
      rfl
    · obtain rfl | rfl := hchain.resolve_left hne
      · exact .inl rfl
      · exact .inr rfl
    · obtain rfl := hagg.resolve_left hne
      rfl
  · obtain ⟨hgeom, htiming, hchain, hagg⟩ := takeEvent_results hevent
    simp [hgeom, htiming, hchain, hagg, dropInput]
  · exact absurd hhead hreset
  · simp [hgeom, htiming, hchain, hagg]

/-! ### Latches -/

/-- What `advance` leaves of the DMA latch: a waited-for one is consumed (42_pipeline.md R163). -/
theorem advance_dmaL (s : State) :
    (advance s).status.dmaL = (s.status.dmaL && decide (s.status.waitst ≠ .waitDma)) := by
  rw [advance_eq]
  split <;> simp_all

/-- What `advance` leaves of the ECC latch: it is consumed in its own wait, and with the DMA latch by a `PWAIT.E`. -/
theorem advance_eccL (s : State) :
    (advance s).status.eccL =
      (s.status.eccL && decide (s.status.waitst ≠ .waitEcc) &&
        !(decide (s.status.waitst = .waitDma) && s.status.dmaL && s.status.waitE)) := by
  rw [advance_eq]
  split <;> simp_all

/-- What an operation does to the latches: it keeps them, or it is one of those that clear them. -/
structure LatchesClearedBy (i : Instr) (s t : State) : Prop where
  dmaL : t.status.dmaL = s.status.dmaL ∨ t.status.dmaL = false ∧ (i = .dbrd ∨ i = .dbwr ∨ ∃ e, i = .pwait e)
  eccL : t.status.eccL = s.status.eccL ∨ t.status.eccL = false ∧ (i = .dbrd ∨ i = .dbwr ∨ i = .pwait true)

theorem takeError_latches (op : Byte) (e : ErrCode) (s : State) :
    (takeError op e s).status.dmaL = s.status.dmaL ∧ (takeError op e s).status.eccL = s.status.eccL := by
  cases e <;> exact ⟨rfl, rfl⟩

theorem commandBody_latches {i : Instr} {body : State → Except ErrCode State} {s u : State}
    (hbody : commandBody i = some body) (h : body s = .ok u) : LatchesClearedBy i s u := by
  cases i <;> cases hbody
  case geom =>
    obtain ⟨-, g, -, rfl⟩ := geomBody_ok h
    exact ⟨.inl rfl, .inl rfl⟩
  case ginv =>
    cases h
    exact ⟨.inl rfl, .inl rfl⟩
  case tsyn =>
    obtain ⟨-, rfl⟩ := tsynBody_ok h
    exact ⟨.inl rfl, .inl rfl⟩
  case dbrd =>
    obtain ⟨b, -, rfl⟩ := dbrdBody_ok h
    exact ⟨.inr ⟨rfl, .inl rfl⟩, .inr ⟨rfl, .inl rfl⟩⟩
  case dbwr =>
    obtain ⟨b, -, rfl⟩ := dbwrBody_ok h
    exact ⟨.inr ⟨rfl, .inr (.inl rfl)⟩, .inr ⟨rfl, .inr (.inl rfl)⟩⟩
  case pwait e =>
    obtain ⟨-, rfl⟩ := pwaitBody_ok h
    refine ⟨.inr ⟨by simp [advance_dmaL], .inr (.inr ⟨e, rfl⟩)⟩, ?_⟩
    cases e with
    | false => exact .inl (by simp [advance_eccL])
    | true =>
      cases hdma : s.status.dmaL with
      | false => exact .inl (by simp [advance_eccL, hdma])
      | true => exact .inr ⟨by simp [advance_eccL, hdma], .inr (.inr rfl)⟩
  case eagg =>
    obtain ⟨-, rfl⟩ := eaggBody_ok h
    exact ⟨.inl rfl, .inl rfl⟩
  case bswp =>
    obtain ⟨-, -, rfl⟩ := bswpBody_ok h
    exact ⟨.inl rfl, .inl rfl⟩

theorem exec_latches {i : Instr} {s t : State} (h : exec i s = .next t) : LatchesClearedBy i s t := by
  obtain ⟨-, hclrf⟩ | ⟨body, hbody, hrun⟩ := exec_eq_clrf_or_runCommand i s
  · rw [hclrf] at h
    cases h
    split <;> exact ⟨.inl rfl, .inl rfl⟩
  · rw [hrun] at h
    obtain ⟨-, rfl⟩ | ⟨-, -, rfl⟩ | ⟨-, -, u, hu, rfl⟩ | ⟨-, -, e, -, rfl⟩ := runCommand_cases h
    · exact ⟨.inl rfl, .inl rfl⟩
    · exact ⟨.inl rfl, .inl rfl⟩
    · obtain ⟨hdma, hecc⟩ := commandBody_latches hbody hu
      exact ⟨hdma, hecc⟩
    · obtain ⟨hdma, hecc⟩ := takeError_latches (opByte i) e s
      exact ⟨.inl hdma, .inl hecc⟩

theorem dmaDone_dmaL (s : State) : (dmaDone s).status.dmaL = decide (s.status.waitst ≠ .waitDma) := by
  simp [dmaDone, advance_dmaL]

theorem dmaDone_eccL (s : State) :
    (dmaDone s).status.eccL =
      (s.status.eccL && decide (s.status.waitst ≠ .waitEcc) &&
        !(decide (s.status.waitst = .waitDma) && s.status.waitE)) := by
  simp [dmaDone, advance_eccL]

theorem eccDone_dmaL (s : State) :
    (eccDone s).status.dmaL = (s.status.dmaL && decide (s.status.waitst ≠ .waitDma)) := by
  simp [eccDone, advance_dmaL]

theorem eccDone_eccL (s : State) :
    (eccDone s).status.eccL =
      (decide (s.status.waitst ≠ .waitEcc) &&
        !(decide (s.status.waitst = .waitDma) && s.status.dmaL && s.status.waitE)) := by
  simp [eccDone, advance_eccL]

/-- What an event does to the latches where none stands in its own wait: each latch is set by its own event only, and the
one latch cleared is `ECC_L`, by the `dma_done` on which a waiting `PWAIT.E` consumes it. -/
structure LatchesChangedBy (e : Event) (s t : State) : Prop where
  dmaL : t.status.dmaL = s.status.dmaL ∨ s.status.dmaL = false ∧ e = .dmaDone
  eccL :
    t.status.eccL = s.status.eccL ∨ s.status.eccL = false ∧ e = .eccDone ∨
      t.status.eccL = false ∧ e = .dmaDone ∧ s.status.waitst = .waitDma ∧ s.status.waitE = true

theorem takeEvent_latches {e : Event} {s t : State} (hinv : Inv s) (h : takeEvent e s = .next t) :
    LatchesChangedBy e s t := by
  have hdmaWait : s.status.waitst = .waitDma → s.status.dmaL = false := hinv.waitDmaUnlatched
  have heccWait : s.status.waitst = .waitEcc → s.status.eccL = false := fun hw => (hinv.waitEccUnlatched hw).1
  obtain ⟨rfl, rfl⟩ | ⟨rfl, rfl⟩ | ⟨rfl, -, rfl⟩ | ⟨rfl, -, rfl⟩ := takeEvent_cases h
  · constructor
    case dmaL =>
      cases hdma : s.status.dmaL with
      | false => exact .inr ⟨rfl, rfl⟩
      | true =>
        have hw : s.status.waitst ≠ .waitDma := fun hw => by simp [hdmaWait hw] at hdma
        exact .inl (by simp [dmaDone_dmaL, hw])
    case eccL =>
      by_cases hconsumed : s.status.waitst = .waitDma ∧ s.status.waitE = true
      · exact .inr (.inr ⟨by simp [dmaDone_eccL, hconsumed], rfl, hconsumed⟩)
      · refine .inl ?_
        rw [dmaDone_eccL]
        cases hw : s.status.waitst with
        | idle => simp
        | waitDma =>
          have hE : s.status.waitE = false := Bool.eq_false_iff.2 fun hE => hconsumed ⟨hw, hE⟩
          simp [hE]
        | waitEcc => simp [heccWait hw]
  · constructor
    case dmaL =>
      refine .inl ?_
      rw [eccDone_dmaL]
      by_cases hw : s.status.waitst = .waitDma
      · simp [hdmaWait hw]
      · simp [hw]
    case eccL =>
      cases hecc : s.status.eccL with
      | false => exact .inr (.inl ⟨rfl, rfl⟩)
      | true =>
        have hw : s.status.waitst ≠ .waitEcc := fun hw => by simp [heccWait hw] at hecc
        refine .inl ?_
        rw [eccDone_eccL]
        by_cases hdma : s.status.waitst = .waitDma
        · simp [hdma, hdmaWait hdma]
        · simp [hdma, hw]
  all_goals
    obtain ⟨hdma, hecc⟩ := takeError_latches _ _ s
    exact ⟨.inl hdma, .inl hecc⟩

/-- Settles O49: an operation only clears latches, an event only sets its own but for the consumed `ECC_L`, reset clears
both, and nothing else touches them. -/
theorem latchDiscipline : Obligations.LatchDiscipline := by
  intro s t hinv h
  have hflip {a b : Bool} (ha : a = false) (hb : b = true) : b ≠ a := by simp [ha, hb]
  obtain ⟨i, hhead, hexec⟩ | ⟨e, hhead, hevent⟩ | ⟨hhead, rfl⟩ | ⟨hstatus, -⟩ := step_writers h
  · obtain ⟨hdma, hecc⟩ := exec_latches hexec
    rw [hhead]
    refine ⟨fun h0 h1 => ?_, fun h0 h1 => ?_, fun h1 h0 => .inr ⟨encode i, rfl, ?_⟩,
      fun h1 h0 => .inr (.inr ⟨encode i, rfl, ?_⟩)⟩
    · obtain ⟨hcleared, -⟩ := hdma.resolve_left (hflip h0 h1)
      exact absurd (hcleared.symm.trans h1) (by decide)
    · obtain ⟨hcleared, -⟩ := hecc.resolve_left (hflip h0 h1)
      exact absurd (hcleared.symm.trans h1) (by decide)
    · obtain ⟨-, rfl | rfl | ⟨e, rfl⟩⟩ := hdma.resolve_left (hflip h0 h1).symm
      · exact .inl rfl
      · exact .inr (.inl rfl)
      · cases e with
        | false => exact .inr (.inr (.inl rfl))
        | true => exact .inr (.inr (.inr rfl))
    · obtain ⟨-, rfl | rfl | rfl⟩ := hecc.resolve_left (hflip h0 h1).symm
      · exact .inl rfl
      · exact .inr (.inl rfl)
      · exact .inr (.inr rfl)
  · have htaken : Inv (dropInput s) := hinv.of_same_fields rfl rfl rfl rfl
    obtain ⟨hdma, hecc⟩ := takeEvent_latches htaken hevent
    rw [hhead]
    refine ⟨fun h0 h1 => ?_, fun h0 h1 => ?_, fun h1 h0 => ?_, fun h1 h0 => .inr (.inl ?_)⟩
    · obtain ⟨-, rfl⟩ := hdma.resolve_left (hflip h0 h1)
      rfl
    · obtain ⟨-, rfl⟩ | ⟨hcleared, -⟩ := hecc.resolve_left (hflip h0 h1)
      · rfl
      · exact absurd (hcleared.symm.trans h1) (by decide)
    · obtain ⟨hunset, -⟩ := hdma.resolve_left (hflip h0 h1).symm
      exact absurd (hunset.symm.trans h1) (by decide)
    · obtain ⟨hunset, -⟩ | ⟨-, rfl, hwait, hwaitE⟩ := hecc.resolve_left (hflip h0 h1).symm
      · exact absurd (hunset.symm.trans h1) (by decide)
      · exact ⟨rfl, hwait, hwaitE⟩
  · exact ⟨fun _ h1 => (nomatch h1), fun _ h1 => (nomatch h1), fun _ _ => .inl hhead, fun _ _ => .inl hhead⟩
  · rw [hstatus]
    exact ⟨fun h0 h1 => absurd rfl (hflip h0 h1), fun h0 h1 => absurd rfl (hflip h0 h1),
      fun h1 h0 => absurd rfl (hflip h0 h1), fun h1 h0 => absurd rfl (hflip h0 h1)⟩

end Sys2Proof.Machine
end

section
/-! Accesses at the slave port (20_memory.md R62, R71): which register an access reaches, and what the port answers
to it outside a wait and in one. -/

namespace Sys2Proof.Machine

/-! ### One act of an agent -/

/-- A step performs the first input. -/
theorem step_of_inputs {s : State} {a : Action} {rest : List Action} (h : s.inputs = a :: rest) :
    step s = perform a { s with inputs := rest } := by
  simp [step, takeInput, h]

/-- The port reaches no register exactly at a wrong width or an unlisted offset. -/
theorem accessedReg_eq_none_iff (w : Width) (off : Word) :
    accessedReg w off = none ↔ w ≠ .w32 ∨ regAt off.toNat = none := by
  cases w <;> simp [accessedReg]

/-- The offset of a register, as a word of the bus, reaches that register. -/
theorem accessedReg_regOffset (r : Reg) : accessedReg .w32 (BitVec.ofNat 32 (regOffset r)) = some r := by
  obtain ⟨-, hlt⟩ := regOffset_aligned r
  have hoff : (BitVec.ofNat 32 (regOffset r)).toNat = regOffset r := Nat.mod_eq_of_lt (by omega)
  rw [accessedReg, hoff, regAt_regOffset]

theorem hostRead_of_unreached {w : Width} {off : Word} (h : accessedReg w off = none) (s : State) :
    hostRead w off s = .next (refuseAccess s) := by
  rw [hostRead, h]

theorem hostRead_of_reached {w : Width} {off : Word} {r : Reg} (h : accessedReg w off = some r) (s : State) :
    hostRead w off s = .next { s with reply := .data (readReg s r) } := by
  rw [hostRead, h]

theorem hostWrite_of_unreached {w : Width} {off : Word} (h : accessedReg w off = none) (data : Word) (s : State) :
    hostWrite w off data s = .next (refuseAccess s) := by
  rw [hostWrite, h]

/-- An accepted write of a register other than `CMD`. -/
theorem hostWrite_of_reached {w : Width} {off : Word} {r : Reg} {s : State} (h : accessedReg w off = some r)
    (hcmd : r ≠ .cmd) (hidle : waiting s.status = false) (data : Word) :
    hostWrite w off data s = .next (writeReg (acceptWrite s) data r) := by
  simp only [hostWrite, h, if_neg hcmd, hidle, Bool.false_eq_true, if_false]

/-- Settles O5: the port reads the register that the offset reaches. -/
theorem hostReadAnswersRegister : Obligations.HostReadAnswersRegister := by
  intro s off r rest hinputs hreg
  rw [step_of_inputs hinputs]
  exact hostRead_of_reached (w := .w32) hreg { s with inputs := rest }

/-- Settles O6: the port reaches no register, so it refuses read and write alike. -/
theorem refusedAccessChangesNothing : Obligations.RefusedAccessChangesNothing := by
  intro s w off data rest hbad hinputs
  have hnone : accessedReg w off = none := (accessedReg_eq_none_iff w off).2 hbad
  obtain hread | hwrite := hinputs
  · rw [step_of_inputs hread]
    exact hostRead_of_unreached hnone _
  · rw [step_of_inputs hwrite]
    exact hostWrite_of_unreached hnone data _

/-! ### Writes in a wait -/

/-- In a wait every operation is refused, `CLRF` included. -/
theorem exec_of_waiting (i : Instr) {s : State} (hw : waiting s.status = true) :
    exec i s = .next (refuseAccess s) := by
  obtain ⟨-, hclrf⟩ | ⟨body, -, hrun⟩ := exec_eq_clrf_or_runCommand i s
  · rw [hclrf, if_pos hw]
  · rw [hrun, runCommand, if_pos hw]

/-- In a wait a command word is refused, legal or not. -/
theorem hostCommand_of_waiting (data : Word) {s : State} (hw : waiting s.status = true) :
    hostCommand data s = .next (refuseAccess s) := by
  unfold hostCommand
  split
  case h_1 i _ => exact exec_of_waiting i (s := acceptWrite s) hw
  case h_2 => exact congrArg Host.Outcome.next (if_pos hw)

/-- In a wait every host write is refused (20_memory.md R71). -/
theorem hostWrite_of_waiting (w : Width) (off data : Word) {s : State} (hw : waiting s.status = true) :
    hostWrite w off data s = .next (refuseAccess s) := by
  cases hreg : accessedReg w off with
  | none => exact hostWrite_of_unreached hreg data s
  | some r =>
    by_cases hcmd : r = .cmd
    · simp only [hostWrite, hreg, if_pos hcmd, hostCommand_of_waiting data hw]
    · simp only [hostWrite, hreg, if_neg hcmd, if_pos hw]

/-- Settles O7: writes by the refusal of each kind of write; that reads are accepted holds in every state. -/
theorem waitRefusesEveryWrite : Obligations.WaitRefusesEveryWrite := by
  refine ⟨fun s w off data rest hwait hinputs => ?_, fun s off r rest _ => hostReadAnswersRegister s off r rest⟩
  rw [step_of_inputs hinputs]
  exact hostWrite_of_waiting w off data (s := { s with inputs := rest }) ((waiting_eq_true_iff s.status).2 hwait)

end Sys2Proof.Machine
end

section
/-! A write of one register (10_state.md R22 to R36, 20_memory.md R62): the register reads back the bits that it keeps,
and no other register reads anything new. -/

namespace Sys2Proof.Machine

/-! ### Kept bits -/

/-- Only four masks have zeros. -/
theorem keptMask_of_whole {r : Reg} (hcfg : r ≠ .cfg) (hknown : r ≠ .tKnown) (hchip : r ≠ .dChip)
    (hctrl : ∀ i, r ≠ .tblCtrl i) : keptMask r = 0xFFFFFFFF := by
  cases r
  case cfg | tKnown | dChip => contradiction
  case tblCtrl i => exact absurd rfl (hctrl i)
  all_goals rfl

/-- Cutting a word down to its low bits is masking it with ones there. -/
theorem setWidth_setWidth_eq_and (v : Word) {w : Nat} (hw : w ≤ 32) :
    (v.setWidth w).setWidth 32 = v &&& BitVec.ofNat 32 (2 ^ w - 1) := by
  have hpow : 2 ^ w ≤ 2 ^ 32 := Nat.pow_le_pow_right (by decide) hw
  have hlow : v.toNat % 2 ^ w < 2 ^ w := Nat.mod_lt _ (Nat.two_pow_pos w)
  apply BitVec.eq_of_toNat_eq
  rw [BitVec.toNat_and, BitVec.toNat_ofNat, Nat.mod_eq_of_lt (by omega), Nat.and_two_pow_sub_one_eq_mod]
  simp only [BitVec.toNat_setWidth]
  exact Nat.mod_eq_of_lt (by omega)

/-- `CFG` keeps the low three bits of what is written to it (10_state.md R25). -/
theorem cfgWord_cfgOfWord (v : Word) : cfgWord (cfgOfWord v) = (v.setWidth 3).setWidth 32 := by
  refine BitVec.eq_of_getLsbD_eq fun i hi => ?_
  simp only [cfgWord, cfgOfWord, BitVec.getLsbD_append, BitVec.getLsbD_ofBool, BitVec.getLsbD_setWidth]
  obtain rfl | rfl | rfl | hhigh : i = 0 ∨ i = 1 ∨ i = 2 ∨ 3 ≤ i := by omega
  · simp
  · simp
  · simp
  · simp [show ¬ i < 3 by omega, show ¬ i < 1 by omega, show ¬ i - 1 < 1 by omega, show ¬ i - 1 - 1 < 1 by omega]

/-! ### The register written and the others -/

/-- A changed entry of the table stands at its index, and the others stay. -/
theorem setEntry_table_getElem (s : State) (i j : Fin 8) (e : TableEntry) :
    (setEntry s i e).table[j] = if i = j then e else s.table[j] := by
  simp [Vector.getElem_set, Fin.ext_iff]

/-- A write to a `RO` register is ignored (10_state.md R20). -/
theorem writeReg_of_ro {r : Reg} (h : regAccess r = .ro) (s : State) (v : Word) : writeReg s v r = s := by
  cases r <;> simp [regAccess, writeReg] at h ⊢

/-- A `RW` register is stored whole, or cut down to its low bits. -/
theorem readReg_writeReg_self {r : Reg} (h : regAccess r = .rw) (s : State) (v : Word) :
    readReg (writeReg s v r) r = v &&& keptMask r := by
  have hwhole : v &&& (0xFFFFFFFF : Word) = v := BitVec.and_allOnes
  cases r
  case cfg => exact (cfgWord_cfgOfWord v).trans (setWidth_setWidth_eq_and v (by decide))
  case tKnown | dChip => exact setWidth_setWidth_eq_and v (by decide)
  case tblCtrl i =>
    simp only [readReg, writeReg, setEntry_table_getElem, if_true, ← BitVec.setWidth_one]
    exact setWidth_setWidth_eq_and v (by decide)
  case tblPage i | tblOob i | tblStrength i =>
    simp only [readReg, writeReg, setEntry_table_getElem, if_true]
    exact hwhole.symm
  all_goals cases h
  all_goals exact hwhole.symm

/-- No two registers share a field. For each register written, every other one reads a field that the write keeps; two
words of the table are different fields of one entry or stand at different indices. -/
theorem readReg_writeReg_of_ne (s : State) (v : Word) {r r' : Reg} (h : r' ≠ r) :
    readReg (writeReg s v r) r' = readReg s r' := by
  cases r
  case tblPage i | tblOob i | tblStrength i | tblCtrl i =>
    cases r'
    case tblPage j | tblOob j | tblStrength j | tblCtrl j =>
      by_cases hij : i = j
      · subst hij
        simp only [readReg, writeReg, setEntry_table_getElem, if_true, ne_eq, not_true] at h ⊢
      · simp only [readReg, writeReg, setEntry_table_getElem, if_neg hij]
    all_goals rfl
  case cmd | status | err | gEccStrength | gChunkSize | gChunkCount | gMetadataSize | gPayloadSize | gAuxSize |
      gAuxStatusOff | gBmByteOff | gBmBitOff | hDataSetupCyc | hDataHoldCyc | hAddrSetupCyc | hHalfPeriods | hSdf |
      dCount | dEffPayload | dEffAux | aFailed | aCorrected => rfl
  all_goals
    cases r'
    all_goals try rfl
    -- What `rfl` leaves is the written register itself.
    all_goals exact absurd rfl h

/-- No register shows the inputs or the port's answer. -/
theorem readReg_acceptWrite (s : State) (inputs : List Action) (r : Reg) :
    readReg (acceptWrite { s with inputs := inputs }) r = readReg s r := by
  cases r <;> rfl

/-- Settles O9: the write reaches the register at its own offset, and `writeReg` changes its field alone. -/
theorem hostWriteReadsBack : Obligations.HostWriteReadsBack := by
  refine ⟨⟨rfl, rfl, rfl, fun _ => rfl, fun r => keptMask_of_whole⟩, fun s r v rest hinputs hidle hcmd => ?_⟩
  have hstep : step s = .next (writeReg (acceptWrite { s with inputs := rest }) v r) := by
    rw [step_of_inputs hinputs]
    exact hostWrite_of_reached (s := { s with inputs := rest }) (accessedReg_regOffset r) hcmd hidle v
  obtain ⟨-, -, -, -, -, -, hmem, hbuild, hrest, hreply⟩ := writeReg_frame (acceptWrite { s with inputs := rest }) v r
  refine ⟨_, hstep, hreply, hrest, hmem, hbuild, fun hrw => readReg_writeReg_self hrw _ v, fun r' hkept => ?_⟩
  obtain hne | hro := hkept
  · rw [readReg_writeReg_of_ne _ v hne, readReg_acceptWrite]
  · rw [writeReg_of_ro hro, readReg_acceptWrite]

end Sys2Proof.Machine
end

section
/-! Who writes bus space (20_memory.md R61, R65): three operations and the stores of other masters. -/

namespace Sys2Proof.Machine

/-- The operations that write bus space (20_memory.md R61). -/
inductive WritesBusSpace : Instr → Prop where
  | dbrd : WritesBusSpace .dbrd
  | dbwr : WritesBusSpace .dbwr
  | bswp : WritesBusSpace .bswp

/-- Of the operations' bodies only those of the three change bus space. -/
theorem commandBody_mem {i : Instr} {body : State → Except ErrCode State} {s u : State}
    (hbody : commandBody i = some body) (h : body s = .ok u) : u.mem = s.mem ∨ WritesBusSpace i := by
  cases i <;> cases hbody
  case dbrd => exact .inr .dbrd
  case dbwr => exact .inr .dbwr
  case bswp => exact .inr .bswp
  case geom =>
    obtain ⟨-, g, -, rfl⟩ := geomBody_ok h
    exact .inl (latchGeometry_mem g s)
  case ginv =>
    cases h
    exact .inl (discardGeometry_mem s)
  case tsyn =>
    obtain ⟨-, rfl⟩ := tsynBody_ok h
    exact .inl (latchTiming_mem s)
  case pwait e =>
    obtain ⟨-, rfl⟩ := pwaitBody_ok h
    exact .inl (by rw [advance_mem, enterWait_mem])
  case eagg =>
    obtain ⟨-, rfl⟩ := eaggBody_ok h
    exact .inl (latchAggregate_mem _ _ s)

theorem exec_mem {i : Instr} {s t : State} (h : exec i s = .next t) : t.mem = s.mem ∨ WritesBusSpace i := by
  obtain ⟨-, hclrf⟩ | ⟨body, hbody, hrun⟩ := exec_eq_clrf_or_runCommand i s
  · rw [hclrf] at h
    cases h
    split <;> exact .inl rfl
  · rw [hrun] at h
    obtain ⟨-, rfl⟩ | ⟨-, -, rfl⟩ | ⟨-, -, u, hu, rfl⟩ | ⟨-, -, e, -, rfl⟩ := runCommand_cases h
    · exact .inl rfl
    · exact .inl rfl
    · rw [succeed_mem]
      exact commandBody_mem hbody hu
    · exact .inl (takeError_mem _ e s)

theorem takeEvent_mem {e : Event} {s t : State} (h : takeEvent e s = .next t) : t.mem = s.mem := by
  obtain ⟨-, rfl⟩ | ⟨-, rfl⟩ | ⟨-, -, rfl⟩ | ⟨-, -, rfl⟩ := takeEvent_cases h <;> simp [dmaDone, eccDone]

theorem hostRead_mem {w : Width} {off : Word} {s t : State} (h : hostRead w off s = .next t) : t.mem = s.mem := by
  obtain rfl | ⟨r, -, rfl⟩ := hostRead_cases h <;> rfl

/-- A host write leaves bus space alone unless it is the word of one of the three operations, written to `CMD`. -/
theorem hostWrite_mem {w : Width} {off data : Word} {s t : State} (h : hostWrite w off data s = .next t) :
    t.mem = s.mem ∨ ∃ i, WritesBusSpace i ∧ Action.write w off data = commandInput (encode i) := by
  obtain rfl | ⟨-, -, -, rfl⟩ | ⟨hcmd, i, hdecode, hexec⟩ | ⟨-, r, -, -, rfl⟩ := hostWrite_cases h
  · exact .inl rfl
  · exact .inl rfl
  · obtain ⟨rfl, rfl⟩ := eq_of_accessedReg_cmd hcmd
    obtain rfl := eq_encode_of_decodeWord hdecode
    exact (exec_mem hexec).imp_right fun hi => ⟨i, hi, rfl⟩
  · obtain ⟨-, -, -, -, -, -, hmem, -⟩ := writeReg_frame (acceptWrite s) data r
    exact .inl hmem

/-- Every act that changes bus space is the word of one of the three operations or a store of another master. -/
theorem perform_mem {a : Action} {s t : State} (h : perform a s = .next t) :
    t.mem = s.mem ∨ (∃ i, WritesBusSpace i ∧ a = commandInput (encode i)) ∨ ∃ addr v, a = .busStore addr v := by
  cases a with
  | read w off => exact .inl (hostRead_mem h)
  | write w off data => exact (hostWrite_mem h).imp_right .inl
  | event e => exact .inl (takeEvent_mem h)
  | busStore addr v => exact .inr (.inr ⟨addr, v, rfl⟩)
  | reset =>
    cases h
    exact .inl (resetBlock_mem s)

/-- Settles O46: the act that a step performs changes bus space only as one of the writers. -/
theorem busSpaceHasFewWriters : Obligations.BusSpaceHasFewWriters := by
  intro s t h hne
  obtain ⟨-, rfl⟩ | ⟨a, rest, hinputs, hperform⟩ := step_cases h
  · exact absurd rfl hne
  rw [hinputs, List.head?_cons]
  obtain ⟨i, hi, rfl⟩ | ⟨addr, v, rfl⟩ := (perform_mem hperform).resolve_left hne
  · cases hi with
    | dbrd => exact .inl rfl
    | dbwr => exact .inr (.inl rfl)
    | bswp => exact .inr (.inr (.inl rfl))
  · exact .inr (.inr (.inr ⟨addr, v, rfl⟩))

/-- Settles O42: the step writes the byte, and `readByte_writeByte` says what is read after it. -/
theorem busStoreChangesOneByte : Obligations.BusStoreChangesOneByte := by
  intro s a v rest hwf hinputs
  refine ⟨writeByte s.mem a v, step_of_inputs hinputs, fun b => ?_⟩
  rw [readByte_writeByte a b v hwf]
  simp only [eq_comm]

end Sys2Proof.Machine
end

section
/-! Command words (30_encoding.md R80 to R82): the decoder inverts the encoder, the words it refuses are the listed ones,
and what a step does with a word of either kind. -/

namespace Sys2Proof.Machine

/-! ### The decoder and the encoder -/

/-- A number selects the row of the operation that has it, and in the row of `PWAIT` the bit `E` is the operand
(30_encoding.md R81). -/
theorem decodeOp_eq_some_iff {e : Bool} {n : Nat} {i : Instr} :
    decodeOp e n = some i ↔ (opByte i).toNat = n ∧ (n = 0x06 → eBit i = e) := by
  constructor
  · intro h
    obtain ⟨hop, hsix, -⟩ := fields_of_decodeOp h
    exact ⟨hop, hsix⟩
  · rintro ⟨rfl, hsix⟩
    cases i with
    | pwait e' => exact congrArg (some ∘ Instr.pwait) (hsix rfl).symm
    | geom | ginv | tsyn | dbrd | dbwr | eagg | bswp | clrf => rfl

/-- The opcode map has a row for each of 0x01 to 0x09 and no other (30_encoding.md R81). -/
theorem decodeOp_eq_none_iff (e : Bool) (n : Nat) : decodeOp e n = none ↔ n = 0x00 ∨ 0x0A ≤ n := by
  unfold decodeOp
  split
  case h_10 =>
    simp only [imp_false, true_iff] at *
    omega
  all_goals simp

/-- The decoder answers an operation exactly where no case of 30_encoding.md R82 holds. -/
theorem decodeWord_eq_ok_iff {b : Build} {w : Word} {i : Instr} :
    decodeWord b w = .ok i ↔
      zeroField w = 0 ∧ decodeOp (eField w) (opField w).toNat = some i ∧
        ¬ (eField w = true ∧ opField w ≠ 0x06) ∧ wellFormed b i = true := by
  constructor
  · intro h
    unfold decodeWord at h
    repeat' split at h
    all_goals cases h
    next hzero _ hstray hrow hwf => exact ⟨not_not.1 hzero, hrow, hstray, hwf⟩
  · rintro ⟨hzero, hrow, hstray, hwf⟩
    rw [decodeWord, if_neg (not_not.2 hzero), hrow]
    exact (if_neg hstray).trans (if_pos hwf)

/-- The fields of an operation's word hold what the encoder puts there (30_encoding.md R80, R81). -/
theorem commandFields (i : Instr) : Laws.CommandFields.Statement i := by
  cases i with
  | geom => exact Laws.CommandFields.geom
  | ginv => exact Laws.CommandFields.ginv
  | tsyn => exact Laws.CommandFields.tsyn
  | dbrd => exact Laws.CommandFields.dbrd
  | dbwr => exact Laws.CommandFields.dbwr
  | pwait e => exact Laws.CommandFields.pwait e
  | eagg => exact Laws.CommandFields.eagg
  | bswp => exact Laws.CommandFields.bswp
  | clrf => exact Laws.CommandFields.clrf

theorem eBit_eq_true_iff (i : Instr) : eBit i = true ↔ i = .pwait true := by
  cases i <;> simp [eBit]

/-- The decoder inverts the encoder on the operations of its build. -/
theorem decodeWord_encode {b : Build} {i : Instr} (hwf : wellFormed b i = true) : decodeWord b (encode i) = .ok i := by
  obtain ⟨hzero, hop, hset⟩ := commandFields i
  have he : eBit i = eField (encode i) := Bool.eq_iff_iff.2 ((eBit_eq_true_iff i).trans hset.symm)
  have hrow : decodeOp (eField (encode i)) (opField (encode i)).toNat = some i :=
    decodeOp_eq_some_iff.2 ⟨by rw [hop], fun _ => he⟩
  have hstray : ¬ (eField (encode i) = true ∧ opField (encode i) ≠ 0x06) := fun ⟨h, hne⟩ =>
    hne (by rw [hop, hset.1 h, opByte])
  exact decodeWord_eq_ok_iff.2 ⟨hzero, hrow, hstray, hwf⟩

/-- Settles O2: the decoder checks the build and accepts encodings only, and it inverts the encoder. -/
theorem decodeEncodeAgree : Obligations.DecodeEncodeAgree := by
  intro b w i
  constructor
  · intro h
    obtain ⟨-, -, -, hwf⟩ := decodeWord_eq_ok_iff.1 h
    exact ⟨hwf, (eq_encode_of_decodeWord h).symm⟩
  · rintro ⟨hwf, rfl⟩
    exact decodeWord_encode hwf

/-! ### Illegal words -/

/-- The decoder refuses a word exactly where one of its four checks fails. -/
theorem decodeWord_error_iff (b : Build) (w : Word) :
    (∃ e, decodeWord b w = .error e) ↔
      zeroField w ≠ 0 ∨ decodeOp (eField w) (opField w).toNat = none ∨ (eField w = true ∧ opField w ≠ 0x06) ∨
        ∃ i, decodeOp (eField w) (opField w).toNat = some i ∧ wellFormed b i = false := by
  have hrefused : (∃ e, decodeWord b w = .error e) ↔ ¬ ∃ i, decodeWord b w = .ok i := by
    cases decodeWord b w <;> simp
  simp only [hrefused, decodeWord_eq_ok_iff]
  cases decodeOp (eField w) (opField w).toNat with
  | none => simp
  | some j =>
    simp only [Option.some.injEq, exists_and_left, exists_eq_left', ↓existsAndEq, true_and, reduceCtorEq, false_or,
      ← Bool.not_eq_true]
    tauto

/-- The operations that a build can lack are those of the two extensions (00_scope.md R2). -/
theorem wellFormed_eq_false_iff (b : Build) (i : Instr) :
    wellFormed b i = false ↔ (i = .eagg ∧ b.extA = false) ∨ (i = .bswp ∧ b.extS = false) := by
  cases i <;> simp [wellFormed]

/-- The row of an operation that the build lacks: 0x07 without extension A, 0x08 without extension S. -/
theorem extensionAbsent_iff (b : Build) (e : Bool) (n : Nat) :
    (∃ i, decodeOp e n = some i ∧ wellFormed b i = false) ↔
      (n = 0x07 ∧ b.extA = false) ∨ (n = 0x08 ∧ b.extS = false) := by
  constructor
  · rintro ⟨i, hrow, hlacks⟩
    obtain ⟨rfl, -⟩ := decodeOp_eq_some_iff.1 hrow
    obtain ⟨rfl, hA⟩ | ⟨rfl, hS⟩ := (wellFormed_eq_false_iff b i).1 hlacks
    · exact .inl ⟨rfl, hA⟩
    · exact .inr ⟨rfl, hS⟩
  · rintro (⟨rfl, hA⟩ | ⟨rfl, hS⟩)
    · exact ⟨.eagg, rfl, hA⟩
    · exact ⟨.bswp, rfl, hS⟩

/-! ### The step that takes a command word -/

/-- The port takes the word as a write to `CMD` (30_encoding.md R80). -/
theorem step_of_commandInput {s : State} {w : Word} {rest : List Action} (h : s.inputs = commandInput w :: rest) :
    step s = hostCommand w { s with inputs := rest } :=
  step_of_inputs h

theorem hostCommand_of_ok {s : State} {w : Word} {i : Instr} (h : decodeWord s.build w = .ok i) :
    hostCommand w s = exec i (acceptWrite s) := by
  rw [hostCommand, h]

/-- Outside a wait an illegal word raises `IllegalCommand` (30_encoding.md R82, R83). -/
theorem hostCommand_of_error {s : State} {w : Word} {e : DecodeError} (hidle : waiting s.status = false)
    (h : decodeWord s.build w = .error e) :
    hostCommand w s = .next (takeError (opField w) .illegalCommand (acceptWrite s)) := by
  rw [hostCommand, h]
  exact congrArg Host.Outcome.next (if_neg (Bool.eq_false_iff.1 hidle))

/-- Settles O3: the decoder's four checks, read as conditions on the word; error entry for the step. -/
theorem illegalWordsExactly : Obligations.IllegalWordsExactly := by
  refine ⟨fun b w => ?_, fun s w rest hinputs hidle herror => ?_⟩
  · rw [decodeWord_error_iff, decodeOp_eq_none_iff, extensionAbsent_iff]
    simp only [zeroField, eField, opField, BitVec.toNat_eq, or_assoc]
    exact Iff.rfl
  · obtain ⟨e, he⟩ := herror
    rw [step_of_commandInput hinputs]
    exact hostCommand_of_error (s := { s with inputs := rest }) hidle he

/-- Settles O1: each row is the encoding of its operation; the last three words fail the check of `OP` and of the build. -/
theorem commandWordsDecode : Obligations.CommandWordsDecode :=
  ⟨decodeWord_encode (i := .geom) rfl, decodeWord_encode (i := .ginv) rfl, decodeWord_encode (i := .tsyn) rfl,
    decodeWord_encode (i := .dbrd) rfl, decodeWord_encode (i := .dbwr) rfl, decodeWord_encode (i := .pwait false) rfl,
    decodeWord_encode (i := .pwait true) rfl, decodeWord_encode (i := .eagg) rfl, decodeWord_encode (i := .bswp) rfl,
    decodeWord_encode (i := .clrf) rfl, ⟨.reservedOp, rfl⟩, ⟨.extensionAbsent, rfl⟩, ⟨.extensionAbsent, rfl⟩⟩

/-- Settles O4: the step is the port's write to `CMD`, which decodes the word. -/
theorem stepRunsDecodedCommand : Obligations.StepRunsDecodedCommand := by
  have hruns : ∀ (s : State) (w : Word) (i : Instr) (rest : List Action), s.inputs = commandInput w :: rest →
      decodeWord s.build w = .ok i → step s = exec i { s with inputs := rest, reply := .done } := by
    intro s w i rest hinputs hdecode
    rw [step_of_commandInput hinputs]
    exact hostCommand_of_ok (s := { s with inputs := rest }) hdecode
  exact ⟨hruns, fun s nbits w i => hruns (s.withFetchWord nbits w) _ i s.inputs rfl⟩

end Sys2Proof.Machine
end

section
/-! The geometry operations (40_geometry.md): the strength table as a search for the least matching index, the branches
of the computation, and what `GEOM` and `GINV` make of them. -/

namespace Sys2Proof.Machine

/-! ### The strength table -/

/-- An entry is valid and has both keys (40_geometry.md R103). -/
def Hits (page oob : Word) (e : TableEntry) : Prop := e.valid = true ∧ e.page = page ∧ e.oob = oob

theorem entryMatches_iff {page oob : Word} {e : TableEntry} : entryMatches page oob e = true ↔ Hits page oob e := by
  simp [entryMatches, Hits, and_assoc]

theorem lookupStrength_eq_none_iff {t : Vector TableEntry Config.nTable} {page oob : Word} :
    lookupStrength t page oob = none ↔ ∀ i : Fin 8, ¬ Hits page oob t[i] := by
  simp only [lookupStrength, Option.map_eq_none_iff, List.find?_eq_none, Vector.mem_toList_iff,
    Vector.forall_mem_iff_forall_getElem, entryMatches_iff, Fin.forall_iff]
  exact Iff.rfl

/-- The search answers the strength of the match with the least index (40_geometry.md R103). -/
theorem lookupStrength_eq_some_iff {t : Vector TableEntry Config.nTable} {page oob strength : Word} :
    lookupStrength t page oob = some strength ↔
      ∃ i : Fin 8, Hits page oob t[i] ∧ (∀ j : Fin 8, j < i → ¬ Hits page oob t[j]) ∧ t[i].strength = strength := by
  simp only [lookupStrength, Option.map_eq_some_iff, Vector.find?_toList, Vector.find?_eq_some_iff_getElem,
    Bool.not_eq_true', ← Bool.not_eq_true, entryMatches_iff]
  constructor
  · rintro ⟨_, ⟨hhit, i, hi, rfl, hleast⟩, rfl⟩
    exact ⟨⟨i, hi⟩, hhit, fun j hj => hleast j hj, rfl⟩
  · rintro ⟨i, hhit, hleast, rfl⟩
    exact ⟨t[i], ⟨hhit, i, i.isLt, rfl, fun j hj => hleast ⟨j, hj.trans i.isLt⟩ hj⟩, rfl⟩

/-- Some entry matches exactly when the search finds a strength. -/
theorem exists_lookupStrength_iff {t : Vector TableEntry Config.nTable} {page oob : Word} :
    (∃ strength, lookupStrength t page oob = some strength) ↔ ∃ i : Fin 8, Hits page oob t[i] := by
  rw [← Option.ne_none_iff_exists', ne_eq, lookupStrength_eq_none_iff]
  simp only [not_forall, not_not]

/-! ### The block mark -/

/-- There is no block mark exactly when its offset in its chunk lies past the data bits (40_geometry.md R106 item 3). -/
theorem blockMark_eq_none_iff {page csz ecc : Nat} :
    blockMark page csz ecc = none ↔
      csz * 8 ≤ markPosition page - markPosition page / (csz * 8 + ecc) * (csz * 8 + ecc) := by
  simp [blockMark]

/-- A mark in data bits, with the parity bits of the chunks before it taken off (40_geometry.md R106 item 4). -/
theorem blockMark_of_lt {page csz ecc : Nat}
    (h : markPosition page - markPosition page / (csz * 8 + ecc) * (csz * 8 + ecc) < csz * 8) :
    blockMark page csz ecc =
      some ((markPosition page - markPosition page / (csz * 8 + ecc) * ecc) / 8,
        (markPosition page - markPosition page / (csz * 8 + ecc) * ecc) % 8) :=
  if_neg (Nat.not_le.2 h)

/-! ### The branches of the computation -/

/-- The page is 0 or no multiple of the chunk size (40_geometry.md R104). -/
def BadPage (page : Word) (c : Cfg) : Prop := page = 0 ∨ page.toNat % chunkSizeOf c ≠ 0

section Computation

variable {ecc : Nat → Nat → Nat} {page oob strength : Word} {c : Cfg} {t : Vector TableEntry Config.nTable}

theorem computeGeometry_of_unlisted (h : lookupStrength t page oob = none) :
    computeGeometry ecc page oob c t = .error .unsupportedGeometry := by
  simp only [computeGeometry, h]

/-- The operand check comes after the lookup (40_geometry.md R104). -/
theorem computeGeometry_of_badPage (h : lookupStrength t page oob = some strength) (hbad : BadPage page c) :
    computeGeometry ecc page oob c t = .error .badOperand := by
  simp only [computeGeometry, h, if_pos (c := page = 0 ∨ _) hbad]

theorem computeGeometry_of_markInParity (h : lookupStrength t page oob = some strength)
    (hgood : ¬ BadPage page c) (hswap : c.swap = true)
    (hmark : blockMark page.toNat (chunkSizeOf c) (ecc (chunkSizeOf c) strength.toNat) = none) :
    computeGeometry ecc page oob c t = .error .blockMarkInEccRegion := by
  simp only [computeGeometry, h, if_neg (c := page = 0 ∨ _) hgood, if_pos hswap, hmark]

theorem computeGeometry_of_mark {mark : Nat × Nat} (h : lookupStrength t page oob = some strength)
    (hgood : ¬ BadPage page c) (hswap : c.swap = true)
    (hmark : blockMark page.toNat (chunkSizeOf c) (ecc (chunkSizeOf c) strength.toNat) = some mark) :
    computeGeometry ecc page oob c t = .ok (layoutGeometry page.toNat (chunkSizeOf c) strength mark) := by
  simp only [computeGeometry, h, if_neg (c := page = 0 ∨ _) hgood, if_pos hswap, hmark]

/-- Without swapping the parity function is not asked (40_geometry.md R109). -/
theorem computeGeometry_of_noSwap (h : lookupStrength t page oob = some strength)
    (hgood : ¬ BadPage page c) (hswap : c.swap = false) :
    computeGeometry ecc page oob c t = .ok (layoutGeometry page.toNat (chunkSizeOf c) strength (0, 0)) := by
  simp only [computeGeometry, h, if_neg (c := page = 0 ∨ _) hgood, hswap, Bool.false_eq_true, if_false]

/-- Each error with the branch that raises it. -/
theorem computeGeometry_error_cases {e : ErrCode} (h : computeGeometry ecc page oob c t = .error e) :
    (e = .unsupportedGeometry ∧ lookupStrength t page oob = none) ∨
      (e = .badOperand ∧ (∃ strength, lookupStrength t page oob = some strength) ∧ BadPage page c) ∨
      (e = .blockMarkInEccRegion ∧ ¬ BadPage page c ∧ c.swap = true ∧
        ∃ strength, lookupStrength t page oob = some strength ∧
          blockMark page.toNat (chunkSizeOf c) (ecc (chunkSizeOf c) strength.toNat) = none) := by
  unfold computeGeometry at h
  split at h
  case h_1 hlookup =>
    cases h
    exact .inl ⟨rfl, hlookup⟩
  case h_2 strength hlookup =>
    split_ifs at h with hbad hswap
    · cases h
      exact .inr (.inl ⟨rfl, ⟨strength, hlookup⟩, hbad⟩)
    · split at h <;> cases h
      next hmark => exact .inr (.inr ⟨rfl, hbad, hswap, strength, hlookup, hmark⟩)

end Computation

/-- Settles O19: each error names its branch, and the lookup and the block mark say when the branch is taken. -/
theorem geometryErrorsExactly : Obligations.GeometryErrorsExactly := by
  intro ecc page oob c t hits csz badPage
  refine ⟨⟨fun h => ?_, fun h => computeGeometry_of_unlisted (lookupStrength_eq_none_iff.2 h)⟩, ⟨fun h => ?_, ?_⟩,
    ⟨fun h => ?_, ?_⟩⟩
  · obtain ⟨-, hlookup⟩ | ⟨hne, -⟩ | ⟨hne, -⟩ := computeGeometry_error_cases h
    · exact lookupStrength_eq_none_iff.1 hlookup
    · cases hne
    · cases hne
  · obtain ⟨hne, -⟩ | ⟨-, hlookup, hbad⟩ | ⟨hne, -⟩ := computeGeometry_error_cases h
    · cases hne
    · exact ⟨exists_lookupStrength_iff.1 hlookup, hbad⟩
    · cases hne
  · rintro ⟨hhit, hbad⟩
    obtain ⟨strength, hlookup⟩ := exists_lookupStrength_iff.2 hhit
    exact computeGeometry_of_badPage hlookup hbad
  · obtain ⟨hne, -⟩ | ⟨hne, -⟩ | ⟨-, hgood, hswap, strength, hlookup, hmark⟩ := computeGeometry_error_cases h
    · cases hne
    · cases hne
    · obtain ⟨i, hhit, hleast, rfl⟩ := lookupStrength_eq_some_iff.1 hlookup
      exact ⟨hgood, hswap, i, hhit, hleast, blockMark_eq_none_iff.1 hmark⟩
  · rintro ⟨hgood, hswap, i, hhit, hleast, hmark⟩
    have hlookup : lookupStrength t page oob = some t[i].strength :=
      lookupStrength_eq_some_iff.2 ⟨i, hhit, hleast, rfl⟩
    exact computeGeometry_of_markInParity hlookup hgood hswap (blockMark_eq_none_iff.2 hmark)

/-! ### Accepted geometries -/

theorem toWord_toNat (w : Word) : toWord w.toNat = w := by
  rw [toWord, BitVec.ofNat_toNat, BitVec.setWidth_eq]

/-- The nine registers, the constants of R104 computed. -/
theorem layoutGeometry_eq (page : Word) (csz : Nat) (strength : Word) (mark : Nat × Nat) :
    layoutGeometry page.toNat csz strength mark =
      { eccStrength := strength, chunkSize := BitVec.ofNat 32 csz, chunkCount := BitVec.ofNat 32 (page.toNat / csz)
        metadataSize := 10, payloadSize := page
        auxSize := BitVec.ofNat 32 (12 + (page.toNat / csz + 3) / 4 * 4), auxStatusOff := 12
        bmByteOff := BitVec.ofNat 32 mark.1, bmBitOff := BitVec.ofNat 32 mark.2 } := by
  rw [layoutGeometry, toWord_toNat]
  rfl

/-- Settles O21: the relations hold of every accepted geometry, and both layouts store the page as the payload. -/
theorem acceptedGeometryRelations : Obligations.AcceptedGeometryRelations := by
  intro ecc page oob c t g h
  refine ⟨computeGeometry_relations h, ?_⟩
  obtain ⟨strength, -, -, -, ⟨-, mark, -, rfl⟩ | ⟨-, rfl⟩⟩ := computeGeometry_ok h <;> exact toWord_toNat page

/-! ### The operations -/

theorem execGeom_of_ok {s : State} {g : Geometry} (hready : Ready s) (hvalid : s.status.geomValid = false)
    (h : computeGeometry Config.eccBits s.pageSize s.oobSize s.cfg s.table = .ok g) :
    exec .geom s = .next (succeed 0x01 (latchGeometry g s)) := by
  obtain ⟨hidle, habort⟩ := hready
  have hbody : geomBody s = .ok (latchGeometry g s) := by simp [geomBody, hvalid, h]
  exact runCommand_ok hidle habort hbody

theorem execGeom_of_error {s : State} {e : ErrCode} (hready : Ready s) (hvalid : s.status.geomValid = false)
    (h : computeGeometry Config.eccBits s.pageSize s.oobSize s.cfg s.table = .error e) :
    exec .geom s = .next (takeError 0x01 e s) := by
  obtain ⟨hidle, habort⟩ := hready
  have hbody : geomBody s = .error e := by simp [geomBody, hvalid, h]
  exact runCommand_error hidle habort hbody

/-- Settles O17: the search stops at `hit`, the page passes the check, and the layout is written with the mark or with
zeros. -/
theorem geomComputesGeometry : Obligations.GeomComputesGeometry := by
  intro s hit page csz n strength d ecc mark k bd hready hvalid hhit hleast hpos hmod hdata
  have hlookup : lookupStrength s.table s.pageSize s.oobSize = some strength :=
    lookupStrength_eq_some_iff.2 ⟨hit, hhit, hleast, rfl⟩
  have hgood : ¬ BadPage s.pageSize s.cfg :=
    not_or.2 ⟨fun h0 => hpos (congrArg BitVec.toNat h0), not_not.2 hmod⟩
  have hcompute : computeGeometry Config.eccBits s.pageSize s.oobSize s.cfg s.table =
      .ok (layoutGeometry page csz strength (if s.cfg.swap then bd / 8 else 0, if s.cfg.swap then bd % 8 else 0)) := by
    cases hswap : s.cfg.swap with
    | false => exact computeGeometry_of_noSwap hlookup hgood hswap
    | true => exact computeGeometry_of_mark hlookup hgood hswap (blockMark_of_lt (hdata hswap))
  rw [execGeom_of_ok hready hvalid hcompute, layoutGeometry_eq]
  rfl

/-- Settles O18: the body's first check raises the error. -/
theorem geomNeedsTeardown : Obligations.GeomNeedsTeardown := by
  rintro s ⟨hidle, habort⟩ hvalid
  have hbody : geomBody s = .error .illegalSequence := if_pos hvalid
  exact runCommand_error hidle habort hbody

/-- Settles O20: error entry for each of the three errors; `BadOperand` leaves `ABORT` clear, as it is where commands
are accepted. -/
theorem geomTakesItsError : Obligations.GeomTakesItsError := by
  intro s e hready hvalid hcompute
  rw [execGeom_of_error hready hvalid hcompute]
  obtain rfl | rfl | ⟨rfl, -⟩ := computeGeometry_error hcompute
  · exact ⟨.inl rfl, rfl⟩
  · obtain ⟨-, habort⟩ := hready
    refine ⟨.inr (.inr rfl), ?_⟩
    simp only [takeError_badOperand, reduceCtorEq, or_self, decide_false, if_false, ← habort]
  · exact ⟨.inr (.inl rfl), rfl⟩

/-- Settles O22: the body has no check and raises no error. -/
theorem ginvDiscardsGeometry : Obligations.GinvDiscardsGeometry := by
  rintro s ⟨hidle, habort⟩
  exact runCommand_ok hidle habort (body := ginvBody) rfl

end Sys2Proof.Machine
end

section
/-! The timing synthesizer (41_timing.md): each loop as a number of turns that ends because its condition fails, the
bounds of the results, and what `TSYN` writes. -/

namespace Sys2Proof.Machine

/-! ### Loops that end by their guard -/

/-- The turn before which a condition first fails. -/
def StopsAfter (cond : Nat → Prop) (n : Nat) : Prop := (∀ m, m < n → cond m) ∧ ¬ cond n

/-- A loop whose bound covers a falling measure ends because its guard fails, and its invariant holds then. -/
theorem repeatWhile_turns {α : Type} {P : α → Prop} {guard : α → Bool} {turn : α → α} {size : α → Nat}
    (hturn : ∀ x, P x → guard x = true → P (turn x) ∧ size (turn x) < size x) {fuel : Nat} {x : α} (hp : P x)
    (hsize : size x ≤ fuel) :
    ∃ n, n ≤ fuel ∧ StopsAfter (fun m => guard (turn^[m] x) = true) n ∧ P (turn^[n] x) ∧
      repeatWhile guard turn fuel x = turn^[n] x := by
  obtain ⟨n, hn, hres, hall, -⟩ := repeatWhile_iterate guard turn fuel x
  have hstop := repeatWhile_exit hturn fuel x hp hsize
  have hinv := repeatWhile_invariant (fun y hy hg => (hturn y hy hg).1) fuel x hp
  rw [hres] at hstop hinv
  exact ⟨n, hn, ⟨hall, Bool.not_eq_true _ ▸ hstop⟩, hinv, hres⟩

/-! ### Quantization, and the range of a path's result -/

theorem cycles_le (ns p maxc : Nat) : cycles ns p maxc ≤ maxc := Nat.min_le_right _ _

theorem factor_le (p ddf maxf d : Nat) : factor p ddf maxf d ≤ maxf := Nat.min_le_right _ _

/-- What the clamp invariant (41_timing.md R142) says of a path: the maxima, and that setup cycles are only added. -/
def InRange (maxc maxf setup : Nat) (r : PathResult) : Prop := setup ≤ r.setup ∧ r.setup ≤ maxc ∧ r.sdf ≤ maxf

/-! ### The Basic path -/

section Basic

variable {p ddf maxc maxf maxdelay setup ideal : Nat}

theorem tradeGuard_iff {t : TradePoint} :
    tradeGuard maxc maxdelay t = true ↔ t.ideal > maxdelay ∧ t.setup < maxc := by
  simp [tradeGuard]

theorem tradeTurn_iterate (n : Nat) :
    (tradeTurn p)^[n] { setup := setup, ideal := ideal } = { setup := setup + n, ideal := ideal - n * p } := by
  induction n with
  | zero => simp
  | succ n ih => simp [Function.iterate_succ_apply', ih, tradeTurn, Nat.sub_sub, Nat.succ_mul, Nat.add_assoc]

/-- The trade (41_timing.md R127): each turn uses up one of the `maxc` setup cycles (R140). -/
theorem basicPath_turns (hle : setup ≤ maxc) :
    ∃ n, n ≤ maxc ∧ StopsAfter (fun m => ideal - m * p > maxdelay ∧ setup + m < maxc) n ∧ setup + n ≤ maxc ∧
      basicPath p ddf maxc maxf maxdelay setup ideal =
        { setup := setup + n, sdf := factor p ddf maxf (ideal - n * p)
          warn := decide (ideal - n * p > maxdelay) } := by
  have hturn (t : TradePoint) (_ : t.setup ≤ maxc) (hg : tradeGuard maxc maxdelay t = true) :
      (tradeTurn p t).setup ≤ maxc ∧ maxc - (tradeTurn p t).setup < maxc - t.setup := by
    obtain ⟨-, hlt⟩ := tradeGuard_iff.1 hg
    exact ⟨hlt, Nat.sub_succ_lt_self _ _ hlt⟩
  obtain ⟨n, hn, hstops, hrange, hres⟩ :=
    repeatWhile_turns (x := (⟨setup, ideal⟩ : TradePoint)) (P := fun t => t.setup ≤ maxc)
      (size := fun t => maxc - t.setup) hturn hle (Nat.sub_le _ _)
  simp only [tradeTurn_iterate, tradeGuard_iff] at hstops hrange hres
  exact ⟨n, hn, hstops, hrange, by simp only [basicPath, hres]⟩

theorem basicPath_inRange (hle : setup ≤ maxc) :
    InRange maxc maxf setup (basicPath p ddf maxc maxf maxdelay setup ideal) := by
  obtain ⟨n, -, -, hrange, hres⟩ := basicPath_turns hle
  rw [hres]
  exact ⟨Nat.le_add_right _ _, hrange, factor_le _ _ _ _⟩

end Basic

/-! ### The Eye-aware path -/

section EyeAware

variable {e : Eye} {ddf maxc maxf setup : Nat}

theorem openGuard_iff : openGuard e maxc setup = true ↔ teye e setup ≤ 0 ∧ setup < maxc := by
  simp [openGuard]

/-- The opening of the eye (41_timing.md R129): each turn uses up one of the `maxc` setup cycles (R140). -/
theorem opening_turns (hle : setup ≤ maxc) :
    ∃ n, n ≤ maxc ∧ StopsAfter (fun m => teye e (setup + m) ≤ 0 ∧ setup + m < maxc) n ∧ setup + n ≤ maxc ∧
      repeatWhile (openGuard e maxc) openTurn maxc setup = setup + n := by
  have hturn (c : Nat) (_ : c ≤ maxc) (hg : openGuard e maxc c = true) :
      openTurn c ≤ maxc ∧ maxc - openTurn c < maxc - c := by
    obtain ⟨-, hlt⟩ := openGuard_iff.1 hg
    exact ⟨hlt, Nat.sub_succ_lt_self _ _ hlt⟩
  have hiter (n : Nat) : openTurn^[n] setup = setup + n := Nat.succ_iterate setup n
  obtain ⟨n, hn, hstops, hrange, hres⟩ :=
    repeatWhile_turns (P := fun c => c ≤ maxc) (size := fun c => maxc - c) hturn hle (Nat.sub_le _ _)
  simp only [hiter, openGuard_iff] at hstops hrange hres
  exact ⟨n, hn, hstops, hrange, hres⟩

theorem centreGuard_iff {c : CentrePoint} :
    centreGuard e ddf maxc c = true ↔ outsideEye e ddf c.setup c.sdf c.ideal = true ∧ c.setup < maxc := by
  simp [centreGuard]

/-- What each turn of the centring loop keeps: the two maxima, and the setup cycles it began with. -/
def Centring (maxc maxf setup : Nat) (c : CentrePoint) : Prop :=
  setup ≤ c.setup ∧ c.setup ≤ maxc ∧ c.sdf ≤ maxf

theorem centring_centreStart (hle : setup ≤ maxc) : Centring maxc maxf setup (centreStart e ddf maxf setup) :=
  ⟨le_refl _, hle, factor_le _ _ _ _⟩

/-- The measure of 41_timing.md R140: setup cycles left, each worth a whole run of the factor
down to 0, and the factor. -/
def centreSize (maxc maxf : Nat) (c : CentrePoint) : Nat := (maxc - c.setup) * (maxf + 1) + c.sdf

theorem centreSize_le {c : CentrePoint} (h : Centring maxc maxf setup c) :
    centreSize maxc maxf c ≤ centreFuel maxc maxf := by
  obtain ⟨-, -, hsdf⟩ := h
  exact Nat.add_le_add (Nat.mul_le_mul_right _ (Nat.sub_le _ _)) hsdf

/-- A delay of factor 0 overshoots no ideal, so the factor that shrinks is positive (41_timing.md R133). -/
theorem sdf_pos_of_overshoot {p sdf ideal : Nat} (h : quant p ddf sdf > ideal) : 0 < sdf := by
  refine Nat.pos_of_ne_zero fun h0 => ?_
  simp [quant, h0] at h

/-- A turn keeps the maxima and lowers the measure: shrinking takes 1 off the factor; growing takes a setup cycle, which
outweighs any factor. -/
theorem centreTurn_centring {c : CentrePoint} (h : Centring maxc maxf setup c) (hg : centreGuard e ddf maxc c = true) :
    Centring maxc maxf setup (centreTurn e ddf maxf c) ∧
      centreSize maxc maxf (centreTurn e ddf maxf c) < centreSize maxc maxf c := by
  obtain ⟨hlow, hhigh, hsdf⟩ := h
  obtain ⟨-, hlt⟩ := centreGuard_iff.1 hg
  unfold centreTurn
  split
  case isTrue hover =>
    have hpos := sdf_pos_of_overshoot hover
    exact ⟨⟨hlow, hhigh, (Nat.sub_le _ _).trans hsdf⟩, Nat.add_lt_add_left (Nat.sub_lt hpos one_pos) _⟩
  case isFalse =>
    refine ⟨⟨hlow.trans (Nat.le_succ _), hlt, factor_le _ _ _ _⟩, ?_⟩
    have hfactor := factor_le e.p ddf maxf (idealDelay e (c.setup + 1))
    calc (maxc - (c.setup + 1)) * (maxf + 1) + factor e.p ddf maxf (idealDelay e (c.setup + 1))
        < (maxc - (c.setup + 1)) * (maxf + 1) + (maxf + 1) := by omega
      _ = (maxc - c.setup) * (maxf + 1) := by rw [← Nat.succ_mul]; congr 1; omega
      _ ≤ centreSize maxc maxf c := Nat.le_add_right _ _

/-- A sample point, setup cycles and factor, with the ideal delay of the current eye. -/
def samplePoint (e : Eye) (x : Nat × Nat) : CentrePoint := { setup := x.1, sdf := x.2, ideal := idealDelay e x.1 }

/-- The sample point that centring begins with at a number of setup cycles. -/
def sampleStart (e : Eye) (ddf maxf c : Nat) : Nat × Nat := (c, factor e.p ddf maxf (idealDelay e c))

/-- A turn of the centring loop on setup cycles and factor alone. -/
def sampleTurn (e : Eye) (ddf maxf : Nat) (x : Nat × Nat) : Nat × Nat :=
  if quant e.p ddf x.2 > idealDelay e x.1 then (x.1, x.2 - 1) else sampleStart e ddf maxf (x.1 + 1)

/-- The loop recomputes the ideal delay whenever setup changes, so setup and factor determine the sample point. -/
theorem samplePoint_semiconj :
    Function.Semiconj (samplePoint e) (sampleTurn e ddf maxf) (centreTurn e ddf maxf) := by
  intro x
  rw [sampleTurn, centreTurn, apply_ite (samplePoint e)]
  rfl

/-- Setup cycles and factor after `n` turns from `c` setup cycles. -/
def sampleAfter (e : Eye) (ddf maxf c n : Nat) : Nat × Nat := (sampleTurn e ddf maxf)^[n] (sampleStart e ddf maxf c)

theorem centreTurn_iterate (c n : Nat) :
    (centreTurn e ddf maxf)^[n] (centreStart e ddf maxf c) = samplePoint e (sampleAfter e ddf maxf c n) :=
  ((samplePoint_semiconj.iterate_right n).eq (sampleStart e ddf maxf c)).symm

/-- The sample point is outside its eye (41_timing.md R132). -/
def sampleOutside (e : Eye) (ddf : Nat) (x : Nat × Nat) : Bool := outsideEye e ddf x.1 x.2 (idealDelay e x.1)

/-- The guard of the centring loop (41_timing.md R133) on setup cycles and factor. -/
theorem centreGuard_samplePoint_iff {x : Nat × Nat} :
    centreGuard e ddf maxc (samplePoint e x) = true ↔ sampleOutside e ddf x = true ∧ x.1 < maxc :=
  centreGuard_iff

/-- The centring loop (41_timing.md R133) within the bound of R140. -/
theorem centring_turns {c : Nat} (hle : c ≤ maxc) :
    ∃ n, n ≤ centreFuel maxc maxf ∧
      StopsAfter (fun m =>
        sampleOutside e ddf (sampleAfter e ddf maxf c m) = true ∧ (sampleAfter e ddf maxf c m).1 < maxc) n ∧
      Centring maxc maxf c (samplePoint e (sampleAfter e ddf maxf c n)) ∧
      repeatWhile (centreGuard e ddf maxc) (centreTurn e ddf maxf) (centreFuel maxc maxf) (centreStart e ddf maxf c) =
        samplePoint e (sampleAfter e ddf maxf c n) := by
  have hinv : Centring maxc maxf c (centreStart e ddf maxf c) := centring_centreStart hle
  obtain ⟨n, hn, hstops, hrange, hres⟩ :=
    repeatWhile_turns (P := Centring maxc maxf c) (turn := centreTurn e ddf maxf) (fun _ => centreTurn_centring) hinv
      (centreSize_le hinv)
  simp only [centreTurn_iterate, centreGuard_samplePoint_iff] at hstops hrange hres
  exact ⟨n, hn, hstops, hrange, hres⟩

/-- The path's result at a sample point: the best-effort flag tells a closed eye or a point outside it (41_timing.md
R135). -/
def eyeResult (e : Eye) (ddf : Nat) (x : Nat × Nat) : PathResult :=
  { setup := x.1, sdf := x.2, warn := decide (teye e x.1 ≤ 0) || sampleOutside e ddf x }

/-- The Eye-aware path (41_timing.md R129 to R133): opening, then centring from where the eye stands. -/
theorem eyePath_turns (hle : setup ≤ maxc) :
    ∃ n₁ n₂, n₁ ≤ maxc ∧ n₂ ≤ centreFuel maxc maxf ∧
      StopsAfter (fun m => teye e (setup + m) ≤ 0 ∧ setup + m < maxc) n₁ ∧
      StopsAfter (fun m =>
        sampleOutside e ddf (sampleAfter e ddf maxf (setup + n₁) m) = true ∧
          (sampleAfter e ddf maxf (setup + n₁) m).1 < maxc) n₂ ∧
      InRange maxc maxf setup (eyeResult e ddf (sampleAfter e ddf maxf (setup + n₁) n₂)) ∧
      eyePath e ddf maxc maxf setup = eyeResult e ddf (sampleAfter e ddf maxf (setup + n₁) n₂) := by
  obtain ⟨n₁, hn₁, hopening, hhigh, hopened⟩ := opening_turns (e := e) hle
  obtain ⟨n₂, hn₂, hcentring, ⟨hlow, hrange⟩, hcentred⟩ :=
    centring_turns (e := e) (ddf := ddf) (maxf := maxf) hhigh
  refine ⟨n₁, n₂, hn₁, hn₂, hopening, hcentring, ⟨(Nat.le_add_right _ _).trans hlow, hrange⟩, ?_⟩
  simp only [eyePath, hopened, hcentred]
  rfl

theorem eyePath_inRange (hle : setup ≤ maxc) : InRange maxc maxf setup (eyePath e ddf maxc maxf setup) := by
  obtain ⟨n₁, n₂, -, -, -, -, hrange, hres⟩ := eyePath_turns hle
  exact hres ▸ hrange

end EyeAware

/-! ### The operation -/

theorem pathOf_basic {t : Target} {l : Limits} (h : t.known ≠ 0b111) :
    pathOf t l =
      basicPath t.clkPeriodNs.toNat (delayUnits (halfOf t l)) l.maxSetupCyc.toNat l.maxSdf.toNat
        (maxDelay t.clkPeriodNs.toNat l.maxSdf.toNat (delayUnits (halfOf t l)) l.maxDllPeriodNs.toNat
          l.maxDllDelayNs.toNat)
        (cycles t.dataSetupNs.toNat t.clkPeriodNs.toNat l.maxSetupCyc.toNat)
        (t.sampleDelayNs.toNat + l.intSetupNs.toNat) := by
  have hknown : allKnown t = false := beq_eq_false_iff_ne.2 h
  simp only [pathOf, hknown, Bool.false_eq_true, if_false]

theorem pathOf_eye {t : Target} {l : Limits} (h : t.known = 0b111) :
    pathOf t l =
      eyePath (eyeOf t l) (delayUnits (halfOf t l)) l.maxSetupCyc.toNat l.maxSdf.toNat
        (cycles t.dataSetupNs.toNat t.clkPeriodNs.toNat l.maxSetupCyc.toNat) := by
  have hknown : allKnown t = true := beq_iff_eq.2 h
  simp only [pathOf, hknown, if_true]

theorem pathOf_inRange (t : Target) (l : Limits) :
    InRange l.maxSetupCyc.toNat l.maxSdf.toNat
      (cycles t.dataSetupNs.toNat t.clkPeriodNs.toNat l.maxSetupCyc.toNat) (pathOf t l) := by
  by_cases hknown : t.known = 0b111
  · rw [pathOf_eye hknown]
    exact eyePath_inRange (cycles_le _ _ _)
  · rw [pathOf_basic hknown]
    exact basicPath_inRange (cycles_le _ _ _)

/-- The final clamp changes nothing (41_timing.md R134). -/
theorem timingOf_eq (t : Target) (l : Limits) :
    timingOf t l =
      { dataSetupCyc := toWord (pathOf t l).setup
        dataHoldCyc := toWord (cycles t.dataHoldNs.toNat t.clkPeriodNs.toNat l.maxSetupCyc.toNat)
        addrSetupCyc := toWord (cycles t.addrSetupNs.toNat t.clkPeriodNs.toNat l.maxSetupCyc.toNat)
        halfPeriods := halfOf t l
        sdf := toWord (pathOf t l).sdf } := by
  obtain ⟨-, hsetup, hsdf⟩ := pathOf_inRange t l
  simp only [timingOf, Nat.min_eq_left hsetup, Nat.min_eq_left hsdf, Nat.min_eq_left (cycles_le _ _ _)]

theorem execTsyn_of_ready {s : State} (hready : Ready s) (hp : s.target.clkPeriodNs ≠ 0) :
    exec .tsyn s = .next (succeed 0x03 (latchTiming s)) := by
  obtain ⟨hidle, habort⟩ := hready
  have hbody : tsynBody s = .ok (latchTiming s) := if_neg hp
  exact runCommand_ok hidle habort hbody

/-- Settles O26: the body's one check, and a success that leaves `ABORT` clear. -/
theorem tsynErrors : Obligations.TsynErrors := by
  intro s hready
  have ⟨hidle, habort⟩ := hready
  refine ⟨fun hp => ?_, fun hp => ⟨_, execTsyn_of_ready hready hp, rfl, habort⟩⟩
  have hbody : tsynBody s = .error .badOperand := if_pos hp
  exact runCommand_error hidle habort hbody

/-- A count that a register bounds is stored whole (41_timing.md R141). -/
theorem toWord_toNat_of_le {n : Nat} {w : Word} (h : n ≤ w.toNat) : (toWord n).toNat = n :=
  (BitVec.toNat_ofNat n 32).trans (Nat.mod_eq_of_lt (h.trans_lt w.isLt))

/-- Settles O25: each result is stored whole, so it keeps the range that its path or its quantization has. -/
theorem tsynClampInvariant : Obligations.TsynClampInvariant := by
  intro s hready hperiod
  have hp : s.target.clkPeriodNs ≠ 0 := fun h0 => absurd hperiod (by simp [h0])
  obtain ⟨hlow, hsetup, hsdf⟩ := pathOf_inRange s.target s.limits
  refine ⟨_, execTsyn_of_ready hready hp, ?_⟩
  simp only [readReg, succeed_timing, latchTiming_timing, timingOf_eq, toWord_toNat_of_le hsetup,
    toWord_toNat_of_le hsdf, toWord_toNat_of_le (cycles_le _ _ _)]
  exact ⟨hsetup, cycles_le _ _ _, cycles_le _ _ _, hsdf, by cases halfOf s.target s.limits <;> decide, hlow⟩

/-- Settles O23: the trade's turns, and the results of the path as they are written. -/
theorem tsynBasicPath : Obligations.TsynBasicPath := by
  intro s p maxc maxf dllPeriod half ddf maxdelay cyc setup ideal hready hp hknown
  obtain ⟨n, hn, ⟨hall, hstop⟩, -, hpath⟩ :=
    basicPath_turns (p := p) (ddf := ddf) (maxf := maxf) (maxdelay := maxdelay) (ideal := ideal)
      (cycles_le s.target.dataSetupNs.toNat p maxc)
  refine ⟨n, hn, hall, hstop, ?_⟩
  have hresult := (pathOf_basic (l := s.limits) hknown).trans hpath
  rw [execTsyn_of_ready hready hp, latchTiming, timingOf_eq, hresult]
  rfl

/-! ### The eye of the operands (41_timing.md R128, R130) -/

theorem teye_eyeOf (t : Target) (l : Limits) (c : Nat) :
    teye (eyeOf t l) c =
      ((l.minPropNs.toNat : Int) + (t.trhohNs.toNat : Int)) + (c : Int) * (t.clkPeriodNs.toNat : Int) -
        ((l.maxPropNs.toNat : Int) + (t.treaNs.toNat : Int)) := by
  simp only [teye, eyeOf, Nat.cast_add]

theorem idealDelay_eyeOf (t : Target) (l : Limits) (c : Nat) :
    (idealDelay (eyeOf t l) c : Int) =
      max 0
        ((((l.maxPropNs.toNat : Int) + (t.treaNs.toNat : Int)) +
            ((l.minPropNs.toNat : Int) + (t.trhohNs.toNat : Int)) - (c : Int) * (t.clkPeriodNs.toNat : Int)) / 2) := by
  simp only [idealDelay, eyeOf, Nat.cast_add, Int.toNat_eq_max, max_comm]

/-- Settles O24: the turns of both loops over the eye of the operands, whose functions are those of the statement. -/
theorem tsynEyeAwarePath : Obligations.TsynEyeAwarePath := by
  intro s p maxc maxf half ddf cyc opening closeb eye ideal fac qnt outside turn setup hready hp hknown
  let e := eyeOf s.target s.limits
  have hteye (c : Nat) : teye e c = eye c := teye_eyeOf s.target s.limits c
  have hideal (c : Nat) : (idealDelay e c : Int) = ideal c := idealDelay_eyeOf s.target s.limits c
  have hstart (c : Nat) : sampleStart e ddf maxf c = (c, fac c) := by
    simp only [fac, ← hideal, Int.toNat_natCast]
    rfl
  have hturn : sampleTurn e ddf maxf = turn := by
    funext x
    simp only [turn, sampleTurn, hstart, ← hideal, gt_iff_lt, Int.ofNat_lt]
    rfl
  have houtside (x : Nat × Nat) : sampleOutside e ddf x = true ↔ outside x := by
    simp only [sampleOutside, outsideEye, decide_eq_true_iff, hteye, hideal]
    rfl
  have hwarn (x : Nat × Nat) : (eyeResult e ddf x).warn = decide (eye x.1 ≤ 0 ∨ outside x) := by
    simp only [eyeResult, hteye, Bool.decide_or, ← houtside, Bool.decide_eq_true]
  have hafter (c n : Nat) : sampleAfter e ddf maxf c n = turn^[n] (c, fac c) := by
    rw [sampleAfter, hstart, hturn]
  obtain ⟨n₁, n₂, hn₁, hn₂, hopening, hcentring, -, hpath⟩ :=
    eyePath_turns (e := e) (ddf := ddf) (maxf := maxf) (cycles_le s.target.dataSetupNs.toNat p maxc)
  simp only [hafter, hteye, houtside] at hopening hcentring hpath
  obtain ⟨hopening, hopened⟩ := hopening
  obtain ⟨hcentring, hcentred⟩ := hcentring
  have hresult := (pathOf_eye (l := s.limits) hknown).trans hpath
  refine ⟨n₁, n₂, hn₁, hn₂, hopening, hopened, hcentring, hcentred, ?_⟩
  rw [execTsyn_of_ready hready hp, latchTiming, timingOf_eq, hresult, hwarn]
  rfl

end Sys2Proof.Machine
end

section
/-! The descriptor builder (42_pipeline.md R151 to R161): the words of both chains, the checks in their order, and the
operations that write the chains. -/

namespace Sys2Proof.Machine

/-! ### The words of a chain -/

/-- The field `CHIP` where it stands in `CTRL`, from bit 12 on (42_pipeline.md R152). -/
def chipField (chip : BitVec 4) : Word := chip.setWidth 32 <<< 12

/-- The chip is put above the other fields of `CTRL` (42_pipeline.md R152). -/
theorem ctrlWord_withChip (c : Ctrl) (chip : BitVec 4) :
    ctrlWord { c with chip := chip } = ctrlWord { c with chip := 0 } ||| chipField chip := by
  refine BitVec.eq_of_getLsbD_eq fun i hi => ?_
  simp only [ctrlWord, chipField, BitVec.getLsbD_or, BitVec.getLsbD_append, BitVec.getLsbD_shiftLeft,
    BitVec.getLsbD_setWidth]
  by_cases hlow : i ≤ 11
  · simp [hlow, show i < 12 by omega]
  · obtain ⟨j, rfl⟩ : ∃ j, i = j + 12 := ⟨i - 12, by omega⟩
    have hcut : (decide (j < 4) && chip.getLsbD j) = chip.getLsbD j := by simpa using BitVec.lt_of_getLsbD
    simp [show ¬ j + 12 < 3 by omega, show j < 32 by omega, hi, hcut]

@[simp] theorem ctrlWord_readWaitReady (c : Word) (chip : BitVec 4) :
    ctrlWord (readWaitReady c chip).ctrl = 0x039 ||| chipField chip :=
  ctrlWord_withChip (readWaitReady 0 0).ctrl chip

@[simp] theorem ctrlWord_readTransfer (c : Word) (chip : BitVec 4) (count : Word) (b : Buffers) :
    ctrlWord (readTransfer c chip count b).ctrl = 0x12A ||| chipField chip :=
  ctrlWord_withChip (readTransfer 0 0 0 ⟨false, false, 0, 0⟩).ctrl chip

@[simp] theorem ctrlWord_readEccSettle (c : Word) (chip : BitVec 4) :
    ctrlWord (readEccSettle c chip).ctrl = 0x03B ||| chipField chip :=
  ctrlWord_withChip (readEccSettle 0 0).ctrl chip

@[simp] theorem ctrlWord_writeTransfer (c : Word) (chip : BitVec 4) (count : Word) (b : Buffers) :
    ctrlWord (writeTransfer c chip count b).ctrl = 0x2AA ||| chipField chip :=
  ctrlWord_withChip (writeTransfer 0 0 0 ⟨false, false, 0, 0⟩).ctrl chip

@[simp] theorem ctrlWord_writeEccSettle (c : Word) (chip : BitVec 4) :
    ctrlWord (writeEccSettle c chip).ctrl = 0x02B ||| chipField chip :=
  ctrlWord_withChip (writeEccSettle 0 0).ctrl chip

@[simp] theorem ctrlWord_unlockDescriptor (chip : BitVec 4) :
    ctrlWord (unlockDescriptor chip).ctrl = 0x044 ||| chipField chip :=
  ctrlWord_withChip (unlockDescriptor 0).ctrl chip

/-- The twenty words of a read chain (42_pipeline.md R155, R161). -/
theorem chainWords_readChain (s : State) (b : Buffers) :
    chainWords (readChain s b) =
      [s.dma.chainAddr + 20, 0x039 ||| chipField s.dma.chip, 0, 0, 0,
        s.dma.chainAddr + 40, 0x12A ||| chipField s.dma.chip, readCount s.geom s.cfg, b.effPayload, b.effAux,
        s.dma.chainAddr + 60, 0x03B ||| chipField s.dma.chip, 0, 0, 0,
        0, 0x044 ||| chipField s.dma.chip, 0, 0, 0] := by
  simp only [chainWords, readChain, List.flatMap_cons, List.flatMap_nil, descriptorWords, ctrlWord_readWaitReady,
    ctrlWord_readTransfer, ctrlWord_readEccSettle, ctrlWord_unlockDescriptor]
  rfl

/-- The fifteen words of a write chain (42_pipeline.md R156, R161). -/
theorem chainWords_writeChain (s : State) (b : Buffers) :
    chainWords (writeChain s b) =
      [s.dma.chainAddr + 20, 0x2AA ||| chipField s.dma.chip, writeCount s.geom, b.effPayload, b.effAux,
        s.dma.chainAddr + 40, 0x02B ||| chipField s.dma.chip, 0, 0, 0,
        0, 0x044 ||| chipField s.dma.chip, 0, 0, 0] := by
  simp only [chainWords, writeChain, List.flatMap_cons, List.flatMap_nil, descriptorWords, ctrlWord_writeTransfer,
    ctrlWord_writeEccSettle, ctrlWord_unlockDescriptor]
  rfl

/-! ### The checks of both builders -/

/-- The one choice of buffers that fails: a caller's buffer is too small and the PageBuffer does not hold both regions
(42_pipeline.md R154). -/
theorem selectBuffers_eq_none_iff (g : Geometry) (d : DmaOperands) :
    selectBuffers g d = none ↔
      (d.payloadLen.toNat < g.payloadSize.toNat ∨ d.auxLen.toNat < g.auxSize.toNat) ∧
        d.pagebufLen.toNat < g.payloadSize.toNat + g.auxSize.toNat := by
  simp [selectBuffers, payloadTooSmall, auxTooSmall, pagebufTooSmall]

/-- The buffers a chain uses: the caller's where it is big enough, else a region of the PageBuffer (42_pipeline.md
R154). -/
def chosenBuffers (g : Geometry) (d : DmaOperands) : Buffers where
  bounceP := payloadTooSmall g d
  bounceA := auxTooSmall g d
  effPayload := if payloadTooSmall g d then d.pagebufAddr else d.payloadAddr
  effAux := if auxTooSmall g d then d.pagebufAddr + g.payloadSize else d.auxAddr

/-- A PageBuffer that holds both regions wherever it is needed is enough. -/
theorem selectBuffers_of_room {g : Geometry} {d : DmaOperands}
    (hroom : payloadTooSmall g d = true ∨ auxTooSmall g d = true →
      g.payloadSize.toNat + g.auxSize.toNat ≤ d.pagebufLen.toNat) :
    selectBuffers g d = some (chosenBuffers g d) := by
  cases hselect : selectBuffers g d with
  | none =>
    obtain ⟨hsmall, hpagebuf⟩ := (selectBuffers_eq_none_iff g d).1 hselect
    have henough := hroom (hsmall.imp decide_eq_true decide_eq_true)
    omega
  | some b =>
    obtain ⟨-, rfl⟩ := selectBuffers_some hselect
    rfl

theorem builderChecks_of_noGeometry {s : State} (hvalid : s.status.geomValid = false) :
    builderChecks s = .error .illegalSequence :=
  if_pos hvalid

theorem builderChecks_of_misaligned {s : State} (hvalid : s.status.geomValid = true)
    (halign : s.dma.chainAddr.toNat % 4 ≠ 0) : builderChecks s = .error .badOperand := by
  simp [builderChecks, hvalid, halign]

theorem builderChecks_of_noBuffers {s : State} (hvalid : s.status.geomValid = true)
    (halign : s.dma.chainAddr.toNat % 4 = 0) (hselect : selectBuffers s.geom s.dma = none) :
    builderChecks s = .error .inadequateDmaBuffer := by
  simp [builderChecks, hvalid, halign, hselect]

theorem builderChecks_of_buffers {s : State} {b : Buffers} (hvalid : s.status.geomValid = true)
    (halign : s.dma.chainAddr.toNat % 4 = 0) (hselect : selectBuffers s.geom s.dma = some b) :
    builderChecks s = .ok b := by
  simp [builderChecks, hvalid, halign, hselect]

/-! ### The operations -/

theorem execDbrd_of_ok {s : State} {b : Buffers} (hready : Ready s) (hchecks : builderChecks s = .ok b) :
    exec .dbrd s = .next (succeed 0x04 (latchChain false (readChain s b) b s)) := by
  obtain ⟨hidle, habort⟩ := hready
  have hbody : dbrdBody s = .ok (latchChain false (readChain s b) b s) := by rw [dbrdBody, hchecks]
  exact runCommand_ok hidle habort hbody

theorem execDbwr_of_ok {s : State} {b : Buffers} (hready : Ready s) (hchecks : builderChecks s = .ok b) :
    exec .dbwr s = .next (succeed 0x05 (latchChain true (writeChain s b) b s)) := by
  obtain ⟨hidle, habort⟩ := hready
  have hbody : dbwrBody s = .ok (latchChain true (writeChain s b) b s) := by rw [dbwrBody, hchecks]
  exact runCommand_ok hidle habort hbody

/-- A failed check is the error of either builder. -/
theorem execBuilder_of_error {i : Instr} {s : State} {e : ErrCode} (hi : i = .dbrd ∨ i = .dbwr) (hready : Ready s)
    (hchecks : builderChecks s = .error e) : exec i s = .next (takeError (opByte i) e s) := by
  obtain ⟨hidle, habort⟩ := hready
  obtain rfl | rfl := hi
  · have hbody : dbrdBody s = .error e := by rw [dbrdBody, hchecks]
    exact runCommand_error hidle habort hbody
  · have hbody : dbwrBody s = .error e := by rw [dbwrBody, hchecks]
    exact runCommand_error hidle habort hbody

/-- Settles O29: the checks in their order, and error entry, which for these three errors writes `ERR` alone. -/
theorem builderErrorsInOrder : Obligations.BuilderErrorsInOrder := by
  intro s i hi hready
  refine ⟨fun hvalid => ?_, fun hvalid halign => ?_, fun hvalid halign hsmall hpagebuf => ?_⟩
  · exact execBuilder_of_error hi hready (builderChecks_of_noGeometry hvalid)
  · exact execBuilder_of_error hi hready (builderChecks_of_misaligned hvalid halign)
  · have hselect : selectBuffers s.geom s.dma = none := (selectBuffers_eq_none_iff _ _).2 ⟨hsmall, hpagebuf⟩
    exact execBuilder_of_error hi hready (builderChecks_of_noBuffers hvalid halign hselect)

/-- Settles O27: the checks pass, the chain's words are the listed ones, and `readByte_writeWords` says what is read
after they are stored. -/
theorem dbrdBuildsReadChain : Obligations.DbrdBuildsReadChain := by
  intro s g o bp ba effP effA count chip c words hready hvalid hwf halign hroom
  have hchecks := builderChecks_of_buffers hvalid halign (selectBuffers_of_room hroom)
  have hfits : 4 * words.length ≤ 2 ^ 32 := show 4 * 20 ≤ 2 ^ 32 by decide
  refine ⟨writeWords s.mem c words, ?_, fun a => readByte_writeWords words c a hwf hfits⟩
  rw [execDbrd_of_ok hready hchecks, latchChain, chainWords_readChain]
  rfl

/-- Settles O28: as for the read chain. -/
theorem dbwrBuildsWriteChain : Obligations.DbwrBuildsWriteChain := by
  intro s g o bp ba effP effA chip c words hready hvalid hwf halign hroom
  have hchecks := builderChecks_of_buffers hvalid halign (selectBuffers_of_room hroom)
  have hfits : 4 * words.length ≤ 2 ^ 32 := show 4 * 15 ≤ 2 ^ 32 by decide
  refine ⟨writeWords s.mem c words, ?_, fun a => readByte_writeWords words c a hwf hfits⟩
  rw [execDbwr_of_ok hready hchecks, latchChain, chainWords_writeChain]
  rfl

end Sys2Proof.Machine
end

section
/-! The completion tracker (42_pipeline.md R162, R163): what `PWAIT` makes of the latches it finds, and which acts enter
and leave a wait. -/

namespace Sys2Proof.Machine

/-! ### `advance` with nothing to consume -/

theorem advance_of_idle {s : State} (hidle : s.status.waitst = .idle) : advance s = s := by
  simp [advance, advanceDma, advanceEcc, hidle]

theorem advance_of_noDma {s : State} (hwait : s.status.waitst = .waitDma) (hdma : s.status.dmaL = false) :
    advance s = s := by
  simp [advance, advanceDma, advanceEcc, hwait, hdma]

/-! ### `PWAIT` -/

/-- A wait just entered goes on as far as the latches allow (42_pipeline.md R162, R163). -/
theorem succeed_advance_enterWait (e : Bool) (s : State) :
    succeed 0x06 (advance (enterWait e s)) =
      { s with
        err := { op := 0x06, code := 0x00 }
        status :=
          if s.status.dmaL = false then { s.status with waitst := .waitDma, waitE := e }
          else if e = false then { s.status with waitst := .idle, waitE := false, descValid := false, dmaL := false }
          else if s.status.eccL = false then { s.status with waitst := .waitEcc, waitE := true, dmaL := false }
          else
            { s.status with waitst := .idle, waitE := false, descValid := false, dmaL := false, eccL := false } } := by
  cases hdma : s.status.dmaL with
  | false =>
    rw [advance_of_noDma (s := enterWait e s) rfl hdma]
    rfl
  | true =>
    simp only [advance_eq, enterWait_status, hdma]
    cases e with
    | false => rfl
    | true => cases hecc : s.status.eccL <;> rfl

/-- Settles O30: without a chain the body raises the error, with one it enters the wait and advances. -/
theorem pwaitWaitsForLatches : Obligations.PwaitWaitsForLatches := by
  rintro s e ⟨hidle, habort⟩
  refine ⟨fun hchain => ?_, fun hchain => ?_⟩
  · have hbody : pwaitBody e s = .error .illegalSequence := if_pos hchain
    exact runCommand_error hidle habort hbody
  · have hbody : pwaitBody e s = .ok (advance (enterWait e s)) := if_neg (by simp [hchain])
    rw [← succeed_advance_enterWait]
    exact runCommand_ok hidle habort hbody

/-! ### Who enters and leaves a wait -/

/-- Error entry outside a wait stays outside. -/
theorem takeError_waitst_of_idle (op : Byte) (e : ErrCode) {s : State} (hidle : s.status.waitst = .idle) :
    (takeError op e s).status.waitst = .idle := by
  cases e with
  | dmaTimeout | eccTimeout => rfl
  | unsupportedGeometry | blockMarkInEccRegion | inadequateDmaBuffer | illegalCommand | illegalSequence | badOperand =>
    exact hidle

/-- Of the operations' bodies only `PWAIT`'s touches the wait state. -/
theorem commandBody_waitst {i : Instr} {body : State → Except ErrCode State} {s u : State}
    (hbody : commandBody i = some body) (h : body s = .ok u) :
    u.status.waitst = s.status.waitst ∨ ∃ e, i = .pwait e := by
  cases i <;> cases hbody
  case pwait e => exact .inr ⟨e, rfl⟩
  case geom =>
    obtain ⟨-, g, -, rfl⟩ := geomBody_ok h
    exact .inl rfl
  case ginv =>
    cases h
    exact .inl rfl
  case tsyn =>
    obtain ⟨-, rfl⟩ := tsynBody_ok h
    exact .inl rfl
  case dbrd =>
    obtain ⟨b, -, rfl⟩ := dbrdBody_ok h
    exact .inl rfl
  case dbwr =>
    obtain ⟨b, -, rfl⟩ := dbwrBody_ok h
    exact .inl rfl
  case eagg =>
    obtain ⟨-, rfl⟩ := eaggBody_ok h
    exact .inl rfl
  case bswp =>
    obtain ⟨-, -, rfl⟩ := bswpBody_ok h
    exact .inl rfl

/-- An operation leaves no wait, and only `PWAIT` enters one. -/
theorem exec_waitst {i : Instr} {s t : State} (h : exec i s = .next t) :
    t.status.waitst = s.status.waitst ∨ s.status.waitst = .idle ∧ ∃ e, i = .pwait e := by
  cases hwait : waiting s.status with
  | true =>
    rw [exec_of_waiting i hwait] at h
    cases h
    exact .inl rfl
  | false =>
    have hidle : s.status.waitst = .idle := (waiting_eq_false_iff _).1 hwait
    obtain ⟨-, hclrf⟩ | ⟨body, hbody, hrun⟩ := exec_eq_clrf_or_runCommand i s
    · rw [hclrf] at h
      cases h
      split <;> exact .inl rfl
    · rw [hrun] at h
      obtain ⟨-, rfl⟩ | ⟨-, -, rfl⟩ | ⟨-, -, u, hu, rfl⟩ | ⟨-, -, e, -, rfl⟩ := runCommand_cases h
      · exact .inl rfl
      · exact .inl rfl
      · exact (commandBody_waitst hbody hu).imp_right fun hpwait => ⟨hidle, hpwait⟩
      · exact .inl ((takeError_waitst_of_idle _ e hidle).trans hidle.symm)

/-- No event enters a wait. -/
theorem takeEvent_waitst_of_idle {e : Event} {s t : State} (h : takeEvent e s = .next t)
    (hidle : s.status.waitst = .idle) : t.status.waitst = .idle := by
  obtain ⟨-, rfl⟩ | ⟨-, rfl⟩ | ⟨-, -, rfl⟩ | ⟨-, -, rfl⟩ := takeEvent_cases h
  · simp [dmaDone, advance_of_idle, hidle]
  · simp [eccDone, advance_of_idle, hidle]
  · rfl
  · rfl

/-- Settles O48: an operation enters a wait only as `PWAIT` and leaves none, an event enters none, reset ends in none,
and nothing else touches the wait state. -/
theorem waitEnteredByPwaitLeftByEvents : Obligations.WaitEnteredByPwaitLeftByEvents := by
  intro s t h
  obtain ⟨i, hhead, hexec⟩ | ⟨e, hhead, hevent⟩ | ⟨hhead, rfl⟩ | ⟨hstatus, -⟩ := step_writers h
  · rw [hhead]
    obtain hkept | ⟨hidle, e, rfl⟩ := exec_waitst hexec
    · exact ⟨fun hidle hentered => absurd (hkept.trans hidle) hentered,
        fun hwait hleft => absurd (hkept.symm.trans hleft) hwait⟩
    · refine ⟨fun _ _ => ?_, fun hwait _ => absurd hidle hwait⟩
      cases e with
      | false => exact .inl rfl
      | true => exact .inr rfl
  · exact ⟨fun hidle hentered => absurd (takeEvent_waitst_of_idle hevent hidle) hentered,
      fun _ _ => .inl ⟨e, hhead⟩⟩
  · exact ⟨fun _ hentered => absurd rfl hentered, fun _ _ => .inr hhead⟩
  · rw [hstatus]
    exact ⟨fun hidle hentered => absurd hidle hentered, fun hwait hleft => absurd hleft hwait⟩

end Sys2Proof.Machine
end

section
/-! The extensions (43_eccagg_swap.md): `EAGG`'s loop as a count and a sum over the list of status bytes, and `BSWP`'s
three bytes bit by bit and as whole numbers. -/

namespace Sys2Proof.Machine

/-! ### The loop over the status bytes (43_eccagg_swap.md R181 to R183) -/

/-- The status bytes, in the order in which the loop of `EAGG` reads them. -/
def statusBytes (m : Memory) (n : Nat) (a : Word) : List Byte :=
  (List.range n).map fun i => readByte m (a + BitVec.ofNat 32 i)

theorem statusBytes_succ (m : Memory) (n : Nat) (a : Word) :
    statusBytes m (n + 1) a = readByte m a :: statusBytes m n (a + 1) := by
  have hfirst : a + BitVec.ofNat 32 0 = a := BitVec.add_zero a
  have hnext (i : Nat) : a + BitVec.ofNat 32 (i + 1) = a + 1 + BitVec.ofNat 32 i := by
    rw [BitVec.add_assoc, Nat.add_comm, BitVec.ofNat_add]
    rfl
  simp only [statusBytes, List.range_succ_eq_map, List.map_cons, List.map_map, Function.comp_def,
    Nat.succ_eq_add_one, hfirst, hnext]

theorem forall_mem_statusBytes {m : Memory} {n : Nat} {a : Word} {P : Byte → Prop} :
    (∀ v ∈ statusBytes m n a, P v) ↔ ∀ i, i < n → P (readByte m (a + BitVec.ofNat 32 i)) := by
  simp [statusBytes]

theorem aggregate_eq (c : Sentinels) (m : Memory) (n : Nat) (a : Word) (failed corrected : Nat) :
    aggregate c m n a failed corrected =
      (failed + (statusBytes m n a).countP (isFailed c),
        corrected + ((statusBytes m n a).map (correctedBits c)).sum) := by
  induction n generalizing a failed corrected with
  | zero => rfl
  | succ n ih =>
    rw [aggregate, ih, statusBytes_succ, List.countP_cons, List.map_cons, List.sum_cons]
    split <;> simp only [Prod.mk.injEq] <;> omega

theorem isFailed_eq_decide (c : Sentinels) (v : Byte) :
    isFailed c v = decide (v ≠ c.erased ∧ v ≠ c.clean ∧ v = c.uncorr) := by
  rw [Bool.eq_iff_iff]
  simp [isFailed, and_assoc]

theorem correctedBits_eq (c : Sentinels) (v : Byte) :
    correctedBits c v = if v = c.erased ∨ v = c.clean ∨ v = c.uncorr then 0 else v.toNat := by
  simp [correctedBits, or_assoc]

theorem reportable_eq_decide (failed corrected strength : Nat) :
    reportable failed corrected strength = decide (failed > 0 ∨ (corrected : Int) ≥ (strength : Int) - 1) := by
  rw [reportable, Bool.decide_or]

/-! ### Arrays of sentinels (43_eccagg_swap.md R186) -/

theorem aggregate_of_sentinels {c : Sentinels} {m : Memory} {n : Nat} {a : Word}
    (h : ∀ v ∈ statusBytes m n a, v = c.erased ∨ v = c.clean ∨ v = c.uncorr) :
    aggregate c m n a 0 0 = ((statusBytes m n a).countP (isFailed c), 0) := by
  have hnone : ((statusBytes m n a).map (correctedBits c)).sum = 0 := by
    refine List.sum_eq_zero (List.forall_mem_map.2 fun v hv => ?_)
    rw [correctedBits_eq, if_pos (h v hv)]
  rw [aggregate_eq, hnone, Nat.zero_add]

theorem aggregate_of_erased {c : Sentinels} {m : Memory} {n : Nat} {a : Word}
    (h : ∀ v ∈ statusBytes m n a, v = c.erased) : aggregate c m n a 0 0 = (0, 0) := by
  have hnone : (statusBytes m n a).countP (isFailed c) = 0 :=
    List.countP_eq_zero.2 fun v hv => by simp [isFailed, h v hv]
  rw [aggregate_of_sentinels fun v hv => .inl (h v hv), hnone]

/-- The uncorrectable byte is the only one that fails, and its index stands in the range once. -/
theorem aggregate_of_oneUncorrectable {c : Sentinels} {m : Memory} {n j : Nat} {a : Word} (hj : j < n)
    (hne : c.uncorr ≠ c.erased) (hnc : c.uncorr ≠ c.clean) (hbad : readByte m (a + BitVec.ofNat 32 j) = c.uncorr)
    (hclean : ∀ i, i < n → i ≠ j → readByte m (a + BitVec.ofNat 32 i) = c.clean) :
    aggregate c m n a 0 0 = (1, 0) := by
  have hfails : ∀ i ∈ List.range n, isFailed c (readByte m (a + BitVec.ofNat 32 i)) = true ↔ (i == j) = true := by
    intro i hi
    by_cases hij : i = j
    · simp [isFailed_eq_decide, hij, hbad, hne, hnc]
    · simp [isFailed_eq_decide, hij, hclean i (List.mem_range.1 hi) hij]
  have hone : (statusBytes m n a).countP (isFailed c) = 1 :=
    calc (statusBytes m n a).countP (isFailed c)
      _ = (List.range n).countP fun i => isFailed c (readByte m (a + BitVec.ofNat 32 i)) := List.countP_map
      _ = (List.range n).count j := List.countP_congr hfails
      _ = 1 := List.count_eq_one_of_mem List.nodup_range (List.mem_range.2 hj)
  have hsentinels : ∀ v ∈ statusBytes m n a, v = c.erased ∨ v = c.clean ∨ v = c.uncorr := by
    refine forall_mem_statusBytes.2 fun i hi => .inr ?_
    by_cases hij : i = j
    · exact .inr (hij ▸ hbad)
    · exact .inl (hclean i hi hij)
  rw [aggregate_of_sentinels hsentinels, hone]

/-- Counts of zero change no total, reported or not. -/
theorem latchAggregate_zero_sums (s : State) : (latchAggregate 0 0 s).sums = s.sums := by
  simp [latchAggregate_sums, toWord_toNat]

/-- Settles O36: no erased byte fails or counts, and of the others exactly one fails. -/
theorem sentinelArrays : Obligations.SentinelArrays := by
  intro c m n a
  constructor
  · intro herased
    refine ⟨aggregate_of_erased (forall_mem_statusBytes.2 herased), latchAggregate_zero_sums, fun strength hmin => ?_⟩
    rw [reportable_eq_decide, decide_eq_false_iff_not]
    omega
  · intro j hj hne hnc hbad hclean
    refine ⟨aggregate_of_oneUncorrectable hj hne hnc hbad hclean, fun strength => ?_⟩
    rw [reportable_eq_decide, decide_eq_true_iff]
    exact .inl Nat.one_pos

/-! ### `EAGG` -/

/-- Settles O35: the loop's counts are those of the list of status bytes, and the body latches them. -/
theorem eaggSumsStatusBytes : Obligations.EaggSumsStatusBytes := by
  rintro s bytes failed corrected report ⟨hidle, habort⟩ hvalid
  have hcounts : aggregateOf s = (failed, corrected) := by
    rw [aggregateOf, aggregate_eq, Nat.zero_add, Nat.zero_add, List.countP_eq_length_filter,
      funext (isFailed_eq_decide _), funext (correctedBits_eq _)]
    rfl
  have hreport : reportable failed corrected s.geom.eccStrength.toNat = report := reportable_eq_decide _ _ _
  have hbody : eaggBody s = .ok (latchAggregate failed corrected s) := by
    rw [eaggBody, if_neg (by simp [hvalid]), hcounts]
  rw [← hreport]
  exact runCommand_ok hidle habort hbody

/-! ### The swapped bytes bit by bit (43_eccagg_swap.md R191) -/

/-- The bits of the block mark: the upper bits of the first payload byte, then the lower bits of the second. -/
theorem getLsbD_straddling {b i : Nat} (hi : i < 8) (p0 p1 : Byte) :
    (straddling b p0 p1).getLsbD i = if i < 8 - b then p0.getLsbD (b + i) else p1.getLsbD (i - (8 - b)) := by
  simp only [straddling, BitVec.getLsbD_or, BitVec.getLsbD_ushiftRight, BitVec.getLsbD_shiftLeft]
  by_cases hlow : i < 8 - b
  · simp [hlow]
  · have hout : p0.getLsbD (b + i) = false := BitVec.getLsbD_of_ge _ _ (by omega)
    simp [hlow, hi, hout]

theorem getLsbD_lowByteSwapped {b i : Nat} (hb : b < 8) (hi : i < 8) (p0 a0 : Byte) :
    (lowByteSwapped b p0 a0).getLsbD i = if i < b then p0.getLsbD i else a0.getLsbD (i - b) := by
  have hmask : ∀ b < 8, ∀ i < 8, (((1 : Byte) <<< b) - 1).getLsbD i = decide (i < b) := by decide
  simp only [lowByteSwapped, BitVec.getLsbD_or, BitVec.getLsbD_and, hmask b hb i hi, BitVec.getLsbD_shiftLeft]
  by_cases hlow : i < b <;> simp [hlow, hi]

theorem getLsbD_highByteSwapped {b i : Nat} (hb : b < 8) (hi : i < 8) (p1 a0 : Byte) :
    (highByteSwapped b p1 a0).getLsbD i = if i < b then a0.getLsbD (8 - b + i) else p1.getLsbD i := by
  have hmask : ∀ b < 8, ∀ i < 8, ((0xFF : Byte) <<< b).getLsbD i = !decide (i < b) := by decide
  simp only [highByteSwapped, BitVec.getLsbD_or, BitVec.getLsbD_and, hmask b hb i hi, BitVec.getLsbD_ushiftRight]
  by_cases hlow : i < b
  · simp [hlow]
  · have hout : a0.getLsbD (8 - b + i) = false := BitVec.getLsbD_of_ge _ _ (by omega)
    simp [hlow, hout]

/-! ### The swap is its own inverse (43_eccagg_swap.md R192) -/

theorem straddling_of_swapped {b : Nat} (hb : b < 8) (p0 p1 a0 : Byte) :
    straddling b (lowByteSwapped b p0 a0) (highByteSwapped b p1 a0) = a0 := by
  refine BitVec.eq_of_getLsbD_eq fun i hi => ?_
  rw [getLsbD_straddling hi]
  split
  · rw [getLsbD_lowByteSwapped hb (by omega), if_neg (by omega), Nat.add_sub_cancel_left]
  · rw [getLsbD_highByteSwapped hb (by omega), if_pos (by omega), Nat.add_sub_cancel' (by omega)]

theorem lowByteSwapped_of_swapped {b : Nat} (hb : b < 8) (p0 p1 a0 : Byte) :
    lowByteSwapped b (lowByteSwapped b p0 a0) (straddling b p0 p1) = p0 := by
  refine BitVec.eq_of_getLsbD_eq fun i hi => ?_
  rw [getLsbD_lowByteSwapped hb hi]
  split
  next hlow => rw [getLsbD_lowByteSwapped hb hi, if_pos hlow]
  next => rw [getLsbD_straddling (by omega), if_pos (by omega), Nat.add_sub_cancel' (by omega)]

theorem highByteSwapped_of_swapped {b : Nat} (hb : b < 8) (p0 p1 a0 : Byte) :
    highByteSwapped b (highByteSwapped b p1 a0) (straddling b p0 p1) = p1 := by
  refine BitVec.eq_of_getLsbD_eq fun i hi => ?_
  rw [getLsbD_highByteSwapped hb hi]
  split
  · rw [getLsbD_straddling (by omega), if_neg (by omega), Nat.add_sub_cancel_left]
  next hhigh => rw [getLsbD_highByteSwapped hb hi, if_neg hhigh]

theorem swapMark_swapMark {m : Memory} {b : Nat} {pa aa : Word} (hwf : m.wf = true) (hb : b < 8) (hpa : aa ≠ pa)
    (hqa : aa ≠ pa + 1) : swapMark (swapMark m b pa aa) b pa aa = m := by
  have hwf' := Memory.wf_swapMark b pa aa hwf
  have hqp : pa + 1 ≠ pa := by simp
  refine Memory.eq_of_readByte (Memory.wf_swapMark b pa aa hwf') hwf fun x => ?_
  have hq : readByte (swapMark m b pa aa) (pa + 1) = highByteSwapped b (readByte m (pa + 1)) (readByte m aa) := by
    rw [readByte_swapMark b pa aa _ hwf, if_pos rfl]
  have hp : readByte (swapMark m b pa aa) pa = lowByteSwapped b (readByte m pa) (readByte m aa) := by
    rw [readByte_swapMark b pa aa _ hwf, if_neg hqp, if_pos rfl]
  have ha : readByte (swapMark m b pa aa) aa = straddling b (readByte m pa) (readByte m (pa + 1)) := by
    rw [readByte_swapMark b pa aa _ hwf, if_neg hqa.symm, if_neg hpa.symm, if_pos rfl]
  rw [readByte_swapMark b pa aa x hwf', hq, hp, ha]
  split
  next h => rw [highByteSwapped_of_swapped hb, h]
  next hxq =>
    split
    next h => rw [lowByteSwapped_of_swapped hb, h]
    next hxp =>
      split
      next h => rw [straddling_of_swapped hb, h]
      next hxa => rw [readByte_swapMark b pa aa x hwf, if_neg hxq, if_neg hxp, if_neg hxa]

/-! ### The formulas on whole numbers (43_eccagg_swap.md R191) -/

theorem ofNat_and_0xFF (n : Nat) : BitVec.ofNat 8 (n &&& 0xFF) = BitVec.ofNat 8 n := by
  rw [BitVec.ofNat_and]
  exact BitVec.and_allOnes

theorem ofNat_toNat_shiftRight (v : Byte) (k : Nat) : BitVec.ofNat 8 (v.toNat >>> k) = v >>> k := by
  rw [← BitVec.toNat_ushiftRight, BitVec.ofNat_toNat, BitVec.setWidth_eq]

theorem ofNat_toNat_shiftLeft (v : Byte) (k : Nat) : BitVec.ofNat 8 (v.toNat <<< k) = v <<< k := rfl

theorem straddling_eq_ofNat (b : Nat) (p0 p1 : Byte) :
    straddling b p0 p1 = BitVec.ofNat 8 (((p0.toNat >>> b) ||| (p1.toNat <<< (8 - b))) &&& 0xFF) := by
  rw [ofNat_and_0xFF, BitVec.ofNat_or, ofNat_toNat_shiftRight, ofNat_toNat_shiftLeft, straddling]

theorem lowByteSwapped_eq_ofNat {b : Nat} (hb : b < 8) (p0 a0 : Byte) :
    lowByteSwapped b p0 a0 = BitVec.ofNat 8 ((p0.toNat &&& ((1 <<< b) - 1)) ||| ((a0.toNat <<< b) &&& 0xFF)) := by
  have hmask : ∀ b < 8, BitVec.ofNat 8 ((1 <<< b) - 1) = ((1 : Byte) <<< b) - 1 := by decide
  rw [BitVec.ofNat_or, BitVec.ofNat_and, ofNat_and_0xFF, ofNat_toNat_shiftLeft, hmask b hb, BitVec.ofNat_toNat,
    BitVec.setWidth_eq, lowByteSwapped]

theorem highByteSwapped_eq_ofNat (b : Nat) (p1 a0 : Byte) :
    highByteSwapped b p1 a0 =
      BitVec.ofNat 8 ((p1.toNat &&& ((0xFF <<< b) &&& 0xFF)) ||| (a0.toNat >>> (8 - b))) := by
  have hmask : BitVec.ofNat 8 (0xFF <<< b) = (0xFF : Byte) <<< b := rfl
  rw [BitVec.ofNat_or, BitVec.ofNat_and, ofNat_and_0xFF, ofNat_toNat_shiftRight, hmask, BitVec.ofNat_toNat,
    BitVec.setWidth_eq, highByteSwapped]

/-! ### `BSWP` -/

/-- What the body of `BSWP` writes: bus space, and no register. -/
def withMarkSwapped (s : State) : State :=
  { s with mem := swapMark s.mem s.geom.bmBitOff.toNat (markAddr s) s.ext.auxAddr }

theorem execBswp_of_ok {s : State} (hready : Ready s) (hvalid : s.status.geomValid = true)
    (hmark : s.status.bmValid = true) : exec .bswp s = .next (succeed 0x08 (withMarkSwapped s)) := by
  obtain ⟨hidle, habort⟩ := hready
  have hbody : bswpBody s = .ok (withMarkSwapped s) := if_neg (by simp [hvalid, hmark])
  exact runCommand_ok hidle habort hbody

/-- Settles O37: `readByte_swapMark` says what is read after the three stores, and each stored byte is its formula. -/
theorem bswpSwapsMarkByte : Obligations.BswpSwapsMarkByte := by
  intro s b pa qa aa p0 p1 a0 hready hvalid hmark hwf hb
  refine ⟨swapMark s.mem b pa aa, execBswp_of_ok hready hvalid hmark, fun x => ?_⟩
  rw [readByte_swapMark b pa aa x hwf, highByteSwapped_eq_ofNat, lowByteSwapped_eq_ofNat hb, straddling_eq_ofNat]
  simp only [eq_comm (b := x)]
  rfl

/-- Settles O38: the second swap has the first one's addresses and bit offset, and undoes it. -/
theorem bswpTwiceRestores : Obligations.BswpTwiceRestores := by
  intro s hready hvalid hmark hwf hb hpa hqa
  have hrestored := swapMark_swapMark (pa := markAddr s) hwf hb hpa hqa
  refine ⟨succeed 0x08 (withMarkSwapped s), execBswp_of_ok hready hvalid hmark, ?_⟩
  rw [execBswp_of_ok (s := succeed 0x08 (withMarkSwapped s)) hready hvalid hmark]
  exact congrArg (fun m => Host.Outcome.next { s with mem := m, err := { op := 0x08, code := 0x00 } }) hrestored

/-! ### Missing preconditions (43_eccagg_swap.md R185, R190) -/

/-- Settles O39: the first check of either body raises the error, whose entry writes `ERR` alone. -/
theorem extensionPreconditions : Obligations.ExtensionPreconditions := by
  rintro s ⟨hidle, habort⟩
  refine ⟨fun hvalid => ?_, fun hmissing => ?_⟩
  · have hbody : eaggBody s = .error .illegalSequence := if_pos hvalid
    exact runCommand_error hidle habort hbody
  · have hbody : bswpBody s = .error .illegalSequence := if_pos hmissing
    exact runCommand_error hidle habort hbody

end Sys2Proof.Machine
end

section
/-! The system operation `CLRF` (44_system.md R200): THE RETURN behind the one check for a wait. -/

namespace Sys2Proof.Machine

/-- `CLRF` checks for a wait only: outside one it is THE RETURN, whatever `ABORT` is. -/
theorem execClrf_of_idle {s : State} (hidle : waiting s.status = false) : execClrf s = .next (leaveAbort s) := by
  rw [execClrf, hidle]
  rfl

/-- THE RETURN writes `ABORT` and the two fields of `ERR`. -/
theorem leaveAbort_eq (s : State) :
    leaveAbort s =
      { s with status := { s.status with abort := false }, err := { op := 0x00, code := 0x00 } } := rfl

/-- Settles O40: no wait refuses `CLRF`, and no other check stands before THE RETURN. -/
theorem clrfLeavesAbort : Obligations.ClrfLeavesAbort := by
  intro s hidle
  have hexec : exec .clrf s = execClrf s := rfl
  rw [hexec, execClrf_of_idle hidle, leaveAbort_eq]

end Sys2Proof.Machine
end

section
/-! Errors of commands (60_exceptions.md R211 to R219): error entry for each error, the errors each operation's body can
raise, and from the two what a failed command leaves behind. -/

namespace Sys2Proof.Machine

/-! ### Error entry -/

/-- Settles O53: the rows of `takeError_eq`. -/
theorem errorEntryByCode : Obligations.ErrorEntryByCode := fun op s =>
  ⟨takeError_eq op .unsupportedGeometry s, takeError_eq op .blockMarkInEccRegion s, takeError_eq op .dmaTimeout s,
    takeError_eq op .eccTimeout s, takeError_eq op .inadequateDmaBuffer s, takeError_eq op .illegalCommand s,
    takeError_eq op .illegalSequence s, takeError_eq op .badOperand s⟩

/-- Error entry but for the timeouts writes `ERR` and, for the codes of the two geometry errors, `ABORT` (R214). -/
theorem takeError_of_no_timeout (op : Byte) {e : ErrCode} (s : State) (hdma : e ≠ .dmaTimeout)
    (hecc : e ≠ .eccTimeout) :
    takeError op e s =
      { s with
        err := { op := op, code := errNumber e }
        status :=
          { s.status with abort := s.status.abort || (errNumber e == 0x01 || errNumber e == 0x02) } } := by
  cases e with
  | dmaTimeout | eccTimeout => contradiction
  | unsupportedGeometry | blockMarkInEccRegion | inadequateDmaBuffer | illegalCommand | illegalSequence | badOperand =>
    simp [takeError_eq, errNumber]

/-- Code 0x02 is `BlockMarkInEccRegion`'s alone (R211). -/
theorem blockMark_of_errNumber {e : ErrCode} (h : errNumber e = 0x02) : e = .blockMarkInEccRegion := by
  cases e with
  | blockMarkInEccRegion => rfl
  | unsupportedGeometry | dmaTimeout | eccTimeout | inadequateDmaBuffer | illegalCommand | illegalSequence |
      badOperand => exact absurd h (by decide)

/-! ### The errors of each operation -/

/-- The rows of the table of 60_exceptions.md R212, without the two timeouts: those end the wait that `PWAIT` entered,
in a later step. -/
def commandErrors : Instr → List ErrCode
  | .geom => [.illegalSequence, .badOperand, .unsupportedGeometry, .blockMarkInEccRegion]
  | .ginv => [.illegalSequence]
  | .tsyn => [.illegalSequence, .badOperand]
  | .dbrd => [.illegalSequence, .badOperand, .inadequateDmaBuffer]
  | .dbwr => [.illegalSequence, .badOperand, .inadequateDmaBuffer]
  | .pwait _ => [.illegalSequence]
  | .eagg => [.illegalSequence]
  | .bswp => [.illegalSequence]
  | .clrf => []

theorem no_timeout_of_mem_commandErrors {i : Instr} {e : ErrCode} (h : e ∈ commandErrors i) :
    e ≠ .dmaTimeout ∧ e ≠ .eccTimeout := by
  constructor <;> rintro rfl <;> cases i <;> simp [commandErrors] at h

theorem builderChecks_error_mem {s : State} {e : ErrCode} (h : builderChecks s = .error e) :
    e ∈ commandErrors .dbrd := by
  obtain ⟨-, rfl⟩ | ⟨-, -, rfl⟩ | ⟨-, -, -, rfl⟩ := builderChecks_error h <;> decide

theorem geomBody_error_mem {s : State} {e : ErrCode} (h : geomBody s = .error e) :
    e ∈ commandErrors .geom ∧ (e = .blockMarkInEccRegion → s.cfg.swap = true) := by
  obtain ⟨-, rfl⟩ | ⟨-, hcompute⟩ := geomBody_error h
  · simp [commandErrors]
  · obtain rfl | rfl | ⟨rfl, hswap⟩ := computeGeometry_error hcompute
    · simp [commandErrors]
    · simp [commandErrors]
    · simp [commandErrors, hswap]

/-- A body raises only the errors of its operation's row. -/
theorem commandBody_error_mem {i : Instr} {body : State → Except ErrCode State} {s : State} {e : ErrCode}
    (hbody : commandBody i = some body) (h : body s = .error e) : e ∈ commandErrors i := by
  cases i <;> cases hbody
  case geom => exact (geomBody_error_mem h).1
  case ginv => cases h
  case tsyn =>
    obtain ⟨-, rfl⟩ := tsynBody_error h
    decide
  case dbrd => exact builderChecks_error_mem (dbrdBody_error h)
  case dbwr => exact builderChecks_error_mem (dbwrBody_error h)
  case pwait =>
    obtain ⟨-, rfl⟩ := pwaitBody_error h
    simp [commandErrors]
  case eagg =>
    obtain ⟨-, rfl⟩ := eaggBody_error h
    decide
  case bswp =>
    obtain ⟨-, rfl⟩ := bswpBody_error h
    decide

/-- `BlockMarkInEccRegion` is `GEOM`'s, and raised with swapping on only (R212). -/
theorem commandBody_blockMark_swap {i : Instr} {body : State → Except ErrCode State} {s : State}
    (hbody : commandBody i = some body) (h : body s = .error .blockMarkInEccRegion) : s.cfg.swap = true := by
  obtain ⟨rfl, -⟩ := commandBody_abortError hbody h (.inr rfl)
  cases hbody
  exact (geomBody_error_mem h).2 rfl

/-- Every operation with a body can be turned away by the abort state. -/
theorem illegalSequence_mem_commandErrors {i : Instr} {body : State → Except ErrCode State}
    (hbody : commandBody i = some body) : .illegalSequence ∈ commandErrors i := by
  cases i with
  | clrf => cases hbody
  | geom | ginv | tsyn | dbrd | dbwr | pwait | eagg | bswp => exact List.mem_cons_self

/-- Outside a wait an operation ends with code 0, or it takes an error of its row on the state that it found. -/
theorem exec_succeeds_or_fails {i : Instr} {s t : State} (hidle : waiting s.status = false)
    (h : exec i s = .next t) :
    t.err.code = 0 ∨
      ∃ e ∈ commandErrors i, (e = .blockMarkInEccRegion → s.cfg.swap = true) ∧ t = takeError (opByte i) e s := by
  obtain ⟨-, hclrf⟩ | ⟨body, hbody, hrun⟩ := exec_eq_clrf_or_runCommand i s
  · rw [hclrf, hidle] at h
    cases h
    exact .inl rfl
  · rw [hrun] at h
    obtain ⟨hwait, -⟩ | ⟨-, -, rfl⟩ | ⟨-, -, u, -, rfl⟩ | ⟨-, -, e, he, rfl⟩ := runCommand_cases h
    · exact absurd (hidle.symm.trans hwait) (by decide)
    · exact .inr ⟨_, illegalSequence_mem_commandErrors hbody, nofun, rfl⟩
    · exact .inl rfl
    · refine .inr ⟨e, commandBody_error_mem hbody he, fun hmark => ?_, rfl⟩
      exact commandBody_blockMark_swap hbody (hmark ▸ he)

/-- Settles O14: a failed command is error entry on the state before, and no operation raises a timeout. -/
theorem failedCommandWritesOnlyErr : Obligations.FailedCommandWritesOnlyErr := by
  intro i s t hidle hexec hfailed
  obtain hok | ⟨e, he, -, rfl⟩ := exec_succeeds_or_fails hidle hexec
  · exact absurd hok hfailed
  · obtain ⟨hdma, hecc⟩ := no_timeout_of_mem_commandErrors he
    rw [takeError_err]
    exact takeError_of_no_timeout (opByte i) s hdma hecc

/-- Settles O15: the code is 0 or that of an error of the operation's row. -/
theorem onlyListedErrorsAreRaised : Obligations.OnlyListedErrorsAreRaised := by
  intro i s t hidle hexec
  have hcode : t.err.code ∈ 0x00 :: (commandErrors i).map errNumber ∧
      (s.cfg.swap = false → t.err.code ≠ 0x02) := by
    obtain hok | ⟨e, he, hswap, rfl⟩ := exec_succeeds_or_fails hidle hexec
    · simp [hok]
    · rw [takeError_err]
      refine ⟨List.mem_cons_of_mem _ (List.mem_map_of_mem he), fun hnoswap hmark => ?_⟩
      exact absurd (hnoswap.symm.trans (hswap (blockMark_of_errNumber hmark))) (by decide)
  cases i with
  | geom | ginv | tsyn | dbrd | dbwr | pwait | eagg | bswp | clrf => exact hcode

end Sys2Proof.Machine
end

section
/-! The events of the environment (60_exceptions.md R220 to R224, 42_pipeline.md R163): what each does in each wait
state, and that the two completions commute. -/

namespace Sys2Proof.Machine

/-! ### The completions -/

/-- A step with `dma_done` sets the latch and advances the wait. -/
theorem step_of_dmaDone {s : State} {rest : List Action} (h : s.inputs = .event .dmaDone :: rest) :
    step s = .next (advance { s with inputs := rest, status := { s.status with dmaL := true } }) :=
  step_of_inputs h

/-- A step with `ecc_done` sets the latch and advances the wait. -/
theorem step_of_eccDone {s : State} {rest : List Action} (h : s.inputs = .event .eccDone :: rest) :
    step s = .next (advance { s with inputs := rest, status := { s.status with eccL := true } }) :=
  step_of_inputs h

/-- Settles O31: the rows of `advance_eq` with the DMA latch set. -/
theorem dmaDoneEvent : Obligations.DmaDoneEvent := by
  intro s rest hinputs
  rw [step_of_dmaDone hinputs, advance_eq]
  refine ⟨fun hidle => ?_, fun hwait hplain => ?_, fun hwait hE hecc => ?_, fun hwait hE hecc => ?_,
    fun hwait hecc => ?_⟩
  · simp only [hidle]
  · simp only [hwait, hplain]
    rfl
  · simp only [hwait, hE, hecc]
  · simp only [hwait, hE, hecc]
    rfl
  · simp only [hwait, hecc]

/-- Settles O32: the rows of `advance_eq` with the ECC latch set. -/
theorem eccDoneEvent : Obligations.EccDoneEvent := by
  intro s rest hinputs
  rw [step_of_eccDone hinputs, advance_eq]
  refine ⟨fun hidle => ?_, fun hwait hdma => ?_, fun hwait => ?_⟩
  · simp only [hidle]
  · simp only [hwait, hdma]
  · simp only [hwait]
    rfl

/-- Two steps of the machine as a run. -/
theorem run_two {s t u : State} (hfirst : step s = .next t) (hsecond : step t = .next u) :
    Host.Core.run Sys2Proof.core 2 s = .next u := by
  simp only [Host.Core.run, Sys2Proof.core, hfirst, hsecond]

/-- Settles O34: in one order `dma_done` goes on to `WAIT_ECC`, where `ecc_done` ends the wait; in the other `ecc_done`
only sets its latch, and `dma_done` ends the wait. -/
theorem completionOrderDoesNotMatter : Obligations.CompletionOrderDoesNotMatter := by
  intro s hwait hE hdma hecc
  obtain ⟨-, -, hdmaFirst, -⟩ := dmaDoneEvent { s with inputs := [.event .dmaDone, .event .eccDone] } _ rfl
  obtain ⟨-, heccFirst, -⟩ := eccDoneEvent { s with inputs := [.event .eccDone, .event .dmaDone] } _ rfl
  obtain ⟨-, -, heccThen⟩ :=
    eccDoneEvent
      { s with inputs := [.event .eccDone], status := { s.status with waitst := .waitEcc, dmaL := false } } _ rfl
  obtain ⟨-, -, -, hdmaThen, -⟩ :=
    dmaDoneEvent { s with inputs := [.event .dmaDone], status := { s.status with eccL := true } } _ rfl
  exact ⟨_, run_two (hdmaFirst hwait hE hecc) (heccThen rfl), run_two (heccFirst hwait hdma) (hdmaThen hwait hE rfl),
    rfl, rfl, rfl, rfl⟩

/-! ### The timeouts -/

/-- Settles O33: in its wait state a timeout is error entry for `PWAIT`, elsewhere the event is refused. -/
theorem timeoutEndsItsWait : Obligations.TimeoutEndsItsWait := by
  intro s rest
  refine ⟨fun hinputs => ?_, fun hinputs => ?_⟩
  · rw [step_of_inputs hinputs]
    exact ⟨fun hwait => if_pos hwait, fun hnowait => if_neg hnowait⟩
  · rw [step_of_inputs hinputs]
    exact ⟨fun hwait => if_pos hwait, fun hnowait => if_neg hnowait⟩

end Sys2Proof.Machine
end

section
/-! The abort state (60_exceptions.md R216, R217) and the running totals (R226): what the block still does in the abort
state, who enters and leaves it, and who changes the totals. -/

namespace Sys2Proof.Machine

/-! ### In the abort state -/

theorem runCommand_of_aborted (op : Byte) (body : State → Except ErrCode State) {s : State}
    (hidle : waiting s.status = false) (habort : s.status.abort = true) :
    runCommand op body s = .next (takeError op .illegalSequence s) := by
  simp only [runCommand, hidle, habort, Bool.false_eq_true, if_false, if_true]

/-- Settles O13: the abort state stands before the bodies of the operations only, not before register writes and
completions. -/
theorem abortStateTurnsCommandsAway : Obligations.AbortStateTurnsCommandsAway := by
  refine ⟨fun i s hidle habort hclrf => ?_, fun s r v rest hidle _ hcmd hinputs => ?_, fun s rest hidle _ => ?_⟩
  · obtain ⟨rfl, -⟩ | ⟨body, -, hrun⟩ := exec_eq_clrf_or_runCommand i s
    · exact absurd rfl hclrf
    · rw [hrun, runCommand_of_aborted _ body hidle habort, takeError_illegalSequence]
  · rw [step_of_inputs hinputs]
    exact hostWrite_of_reached (s := { s with inputs := rest }) (accessedReg_regOffset r) hcmd hidle v
  · have hwaitst : s.status.waitst = .idle := (waiting_eq_false_iff _).1 hidle
    exact ⟨fun hinputs => (dmaDoneEvent s rest hinputs).1 hwaitst,
      fun hinputs => (eccDoneEvent s rest hinputs).1 hwaitst⟩

/-! ### The bodies of the operations -/

@[simp] theorem advance_abort (s : State) : (advance s).status.abort = s.status.abort := by
  rw [advance_eq]
  split <;> rfl

@[simp] theorem advance_sums (s : State) : (advance s).sums = s.sums := by rw [advance_frame]

/-- No body that succeeds touches `ABORT`, and only `EAGG`'s touches the totals. -/
theorem commandBody_abort_sums {i : Instr} {body : State → Except ErrCode State} {s u : State}
    (hbody : commandBody i = some body) (h : body s = .ok u) :
    u.status.abort = s.status.abort ∧ (u.sums = s.sums ∨ i = .eagg) := by
  cases i <;> cases hbody
  case geom =>
    obtain ⟨-, g, -, rfl⟩ := geomBody_ok h
    exact ⟨rfl, .inl rfl⟩
  case ginv =>
    cases h
    exact ⟨rfl, .inl rfl⟩
  case tsyn =>
    obtain ⟨-, rfl⟩ := tsynBody_ok h
    exact ⟨rfl, .inl rfl⟩
  case dbrd =>
    obtain ⟨b, -, rfl⟩ := dbrdBody_ok h
    exact ⟨rfl, .inl rfl⟩
  case dbwr =>
    obtain ⟨b, -, rfl⟩ := dbwrBody_ok h
    exact ⟨rfl, .inl rfl⟩
  case pwait e =>
    obtain ⟨-, rfl⟩ := pwaitBody_ok h
    exact ⟨advance_abort _, .inl (advance_sums _)⟩
  case eagg =>
    obtain ⟨-, rfl⟩ := eaggBody_ok h
    exact ⟨rfl, .inr rfl⟩
  case bswp =>
    obtain ⟨-, -, rfl⟩ := bswpBody_ok h
    exact ⟨rfl, .inl rfl⟩

/-! ### Who enters and leaves the abort state -/

/-- Error entry touches `ABORT` for the two geometry errors only, and sets it (R214). -/
theorem takeError_abort (op : Byte) (e : ErrCode) (s : State) :
    (takeError op e s).status.abort = s.status.abort ∨
      (takeError op e s).status.abort = true ∧ (e = .unsupportedGeometry ∨ e = .blockMarkInEccRegion) := by
  cases e with
  | unsupportedGeometry => exact .inr ⟨rfl, .inl rfl⟩
  | blockMarkInEccRegion => exact .inr ⟨rfl, .inr rfl⟩
  | dmaTimeout | eccTimeout | inadequateDmaBuffer | illegalCommand | illegalSequence | badOperand => exact .inl rfl

/-- An operation keeps `ABORT`, or it is `GEOM` and sets it, or it is `CLRF` and clears it. -/
theorem exec_abort {i : Instr} {s t : State} (h : exec i s = .next t) :
    t.status.abort = s.status.abort ∨ t.status.abort = true ∧ i = .geom ∨ t.status.abort = false ∧ i = .clrf := by
  obtain ⟨rfl, hclrf⟩ | ⟨body, hbody, hrun⟩ := exec_eq_clrf_or_runCommand i s
  · rw [hclrf] at h
    cases h
    split
    · exact .inl rfl
    · exact .inr (.inr ⟨rfl, rfl⟩)
  · rw [hrun] at h
    obtain ⟨-, rfl⟩ | ⟨-, -, rfl⟩ | ⟨-, -, u, hu, rfl⟩ | ⟨-, -, e, he, rfl⟩ := runCommand_cases h
    · exact .inl rfl
    · exact .inl rfl
    · exact .inl (commandBody_abort_sums hbody hu).1
    · refine (takeError_abort (opByte i) e s).imp_right fun ⟨hset, hgeometry⟩ => .inl ⟨hset, ?_⟩
      exact (commandBody_abortError hbody he hgeometry).1

theorem takeEvent_abort {e : Event} {s t : State} (h : takeEvent e s = .next t) :
    t.status.abort = s.status.abort := by
  obtain ⟨-, rfl⟩ | ⟨-, rfl⟩ | ⟨-, -, rfl⟩ | ⟨-, -, rfl⟩ := takeEvent_cases h
  · exact advance_abort _
  · exact advance_abort _
  · rfl
  · rfl

/-- A step keeps `ABORT`, or it is `GEOM` and sets it, or it is `CLRF` or reset and clears it. -/
theorem step_abort {s t : State} (h : step s = .next t) :
    t.status.abort = s.status.abort ∨
      t.status.abort = true ∧ s.inputs.head? = some (commandInput 0x01) ∨
      t.status.abort = false ∧ (s.inputs.head? = some (commandInput 0x09) ∨ s.inputs.head? = some .reset) := by
  obtain ⟨i, hhead, hexec⟩ | ⟨e, -, hevent⟩ | ⟨hhead, rfl⟩ | ⟨hstatus, -⟩ := step_writers h
  · obtain hkept | ⟨hset, rfl⟩ | ⟨hcleared, rfl⟩ := exec_abort hexec
    · exact .inl hkept
    · exact .inr (.inl ⟨hset, hhead⟩)
    · exact .inr (.inr ⟨hcleared, .inl hhead⟩)
  · have hkept : t.status.abort = (dropInput s).status.abort := takeEvent_abort hevent
    exact .inl hkept
  · exact .inr (.inr ⟨rfl, .inr hhead⟩)
  · exact .inl (congrArg Status.abort hstatus)

/-- Settles O47: the three cases of `step_abort`. -/
theorem abortEnteredByGeomLeftByClrf : Obligations.AbortEnteredByGeomLeftByClrf := by
  intro s t h
  obtain hkept | ⟨hset, hgeom⟩ | ⟨hcleared, hleaver⟩ := step_abort h
  · rw [hkept]
    exact ⟨fun h0 h1 => absurd (h0.symm.trans h1) (by decide), fun h1 h0 => absurd (h0.symm.trans h1) (by decide)⟩
  · exact ⟨fun _ _ => hgeom, fun _ h0 => absurd (hset.symm.trans h0) (by decide)⟩
  · exact ⟨fun _ h1 => absurd (hcleared.symm.trans h1) (by decide), fun _ _ => hleaver⟩

/-! ### Who changes the running totals -/

theorem exec_sums {i : Instr} {s t : State} (h : exec i s = .next t) : t.sums = s.sums ∨ i = .eagg := by
  obtain ⟨-, hclrf⟩ | ⟨body, hbody, hrun⟩ := exec_eq_clrf_or_runCommand i s
  · rw [hclrf] at h
    cases h
    split <;> exact .inl rfl
  · rw [hrun] at h
    obtain ⟨-, rfl⟩ | ⟨-, -, rfl⟩ | ⟨-, -, u, hu, rfl⟩ | ⟨-, -, e, -, rfl⟩ := runCommand_cases h
    · exact .inl rfl
    · exact .inl rfl
    · exact (commandBody_abort_sums hbody hu).2
    · exact .inl (takeError_sums _ e s)

theorem takeEvent_sums {e : Event} {s t : State} (h : takeEvent e s = .next t) : t.sums = s.sums := by
  obtain ⟨-, rfl⟩ | ⟨-, rfl⟩ | ⟨-, -, rfl⟩ | ⟨-, -, rfl⟩ := takeEvent_cases h <;> simp [dmaDone, eccDone]

/-- A host write changes the totals only as a write to one of them. -/
theorem writeReg_sums (s : State) (v : Word) (r : Reg) :
    (writeReg s v r).sums = s.sums ∨ r = .sFailed ∨ r = .sCorrected := by
  cases r
  case sFailed => exact .inr (.inl rfl)
  case sCorrected => exact .inr (.inr rfl)
  all_goals exact .inl rfl

/-- A register is reached by a 32-bit access to its own offset only (20_memory.md R62). -/
theorem eq_of_accessedReg {w : Width} {off : Word} {r : Reg} (h : accessedReg w off = some r) :
    w = .w32 ∧ off = BitVec.ofNat 32 (regOffset r) := by
  cases w
  case w32 => exact ⟨rfl, by rw [regOffset_of_regAt h, BitVec.ofNat_toNat, BitVec.setWidth_eq]⟩
  all_goals cases h

/-- The acts that change the running totals (60_exceptions.md R226). -/
inductive ChangesTotals : Action → Prop where
  | eagg : ChangesTotals (commandInput (encode .eagg))
  | failed (v : Word) : ChangesTotals (regWrite .sFailed v)
  | corrected (v : Word) : ChangesTotals (regWrite .sCorrected v)
  | reset : ChangesTotals .reset

theorem hostWrite_sums {w : Width} {off data : Word} {s t : State} (h : hostWrite w off data s = .next t) :
    t.sums = s.sums ∨ ChangesTotals (.write w off data) := by
  obtain rfl | ⟨-, -, -, rfl⟩ | ⟨hcmd, i, hdecode, hexec⟩ | ⟨-, r, hreg, -, rfl⟩ := hostWrite_cases h
  · exact .inl rfl
  · exact .inl rfl
  · obtain ⟨rfl, rfl⟩ := eq_of_accessedReg_cmd hcmd
    obtain rfl := eq_encode_of_decodeWord hdecode
    obtain hkept | rfl := exec_sums hexec
    · exact .inl hkept
    · exact .inr .eagg
  · obtain ⟨rfl, rfl⟩ := eq_of_accessedReg hreg
    obtain hkept | rfl | rfl := writeReg_sums (acceptWrite s) data r
    · exact .inl hkept
    · exact .inr (.failed data)
    · exact .inr (.corrected data)

theorem perform_sums {a : Action} {s t : State} (h : perform a s = .next t) : t.sums = s.sums ∨ ChangesTotals a := by
  cases a with
  | read w off => obtain rfl | ⟨r, -, rfl⟩ := hostRead_cases h <;> exact .inl rfl
  | write w off data => exact hostWrite_sums h
  | event e => exact .inl (takeEvent_sums h)
  | busStore addr v =>
    cases h
    exact .inl rfl
  | reset => exact .inr .reset

/-- Settles O50: the act that a step performs changes the totals only as one of the listed ones. -/
theorem totalsChangeOnlyByEaggAndHost : Obligations.TotalsChangeOnlyByEaggAndHost := by
  intro s t h hne
  obtain ⟨-, rfl⟩ | ⟨a, rest, hinputs, hperform⟩ := step_cases h
  · exact absurd rfl hne
  rw [hinputs, List.head?_cons]
  cases (perform_sums hperform).resolve_left hne with
  | eagg => exact .inl rfl
  | reset => exact .inr (.inl rfl)
  | failed v => exact .inr (.inr ⟨v, .inl rfl⟩)
  | corrected v => exact .inr (.inr ⟨v, .inr rfl⟩)

end Sys2Proof.Machine
end

section
/-! Boot (70_reset_and_hazards.md R252): an idle block stays as it is, and the first command after reset is an operation
whose precondition the reset state meets or lacks. -/

namespace Sys2Proof.Machine

/-! ### Idle -/

/-- A step without an input: the other case of `step_of_inputs`. -/
theorem step_of_noInputs {s : State} (h : s.inputs = []) : step s = .next s := by
  simp [step, takeInput, h]

/-- Settles O41: the case of `takeInput` without an input. -/
theorem noInputNoChange : Obligations.NoInputNoChange := fun _ => step_of_noInputs

/-! ### The first command -/

/-- No entry of the table is valid after reset, so no page and no spare area are listed (70_reset_and_hazards.md R251). -/
theorem not_hits_resetTable (page oob : Word) (i : Fin 8) : ¬ Hits page oob State.reset.table[i] := by
  have hentry : State.reset.table[i] = TableEntry.reset := by simp [State.reset, State.resetWith]
  rintro ⟨hvalid, -⟩
  rw [hentry] at hvalid
  cases hvalid

/-- The geometry computation finds nothing in the reset table, whatever the parity function and the operands. -/
theorem computeGeometry_resetTable (ecc : Nat → Nat → Nat) (page oob : Word) (c : Cfg) :
    computeGeometry ecc page oob c State.reset.table = .error .unsupportedGeometry :=
  computeGeometry_of_unlisted (lookupStrength_eq_none_iff.2 (not_hits_resetTable page oob))

/-- Settles O16: each operation's own statement, for the precondition that the reset state lacks or, for `GINV` and `CLRF`,
with the writes that the reset state already has. -/
theorem firstCommandAfterReset : Obligations.FirstCommandAfterReset := by
  have hready : Ready State.reset := ⟨rfl, rfl⟩
  have hgeom : State.reset.status.geomValid = false := rfl
  have hchain : State.reset.status.descValid = false := rfl
  have hperiod : State.reset.target.clkPeriodNs = 0 := rfl
  obtain ⟨heagg, hbswp⟩ := extensionPreconditions State.reset hready
  refine ⟨?geom, (tsynErrors _ hready).1 hperiod, ?dbrd, ?dbwr, heagg hgeom, hbswp (.inl hgeom),
    fun e => (pwaitWaitsForLatches _ e hready).1 hchain, ?ginv, ?clrf⟩
  case geom => exact execGeom_of_error hready hgeom (computeGeometry_resetTable _ _ _ _)
  case dbrd => exact (builderErrorsInOrder _ .dbrd (.inl rfl) hready).1 hgeom
  case dbwr => exact (builderErrorsInOrder _ .dbwr (.inr rfl) hready).1 hgeom
  case ginv =>
    rw [ginvDiscardsGeometry _ hready]
    rfl
  case clrf =>
    rw [clrfLeavesAbort _ rfl]
    rfl

end Sys2Proof.Machine
end
